-- ==== Sys2Proof/Word.lean ====
section
/-! DEFINITION. The word types of the engine and the three encoded formats a transaction or a stage
code comes in (spec/00_scope.md R8, R9; spec/30_encoding.md R90 to R97). -/

namespace Sys2Proof

/-- A 32-bit bus data word (R8, R9). -/
abbrev Word := BitVec 32

/-- A byte offset in the 4 KiB register window (R8, R60). -/
abbrev Offset := BitVec 12

/-- One character of an input string, as its 8-bit code (R94). -/
abbrev Char8 := BitVec 8

/-- The direction of a bus access, with the data word that a write carries (R91). -/
inductive AccessKind where
  | read
  | write (data : Word)
  deriving DecidableEq, Repr

/-- One host bus transaction of format `HBUS`: bit 12 (`WR`) is the kind, bits 11:0 are `off`; a
transaction also carries its size in bytes (R91). -/
structure BusAccess where
  off : Offset
  size : Nat
  kind : AccessKind
  deriving DecidableEq, Repr

/-- What there is to decode: a bus transaction, the data word of a write to `CTRL`, or a stage code
(R90). Format `CHAR` is an operand of the two character ports and has no row of its own. -/
inductive CodeWord where
  | hbus (a : BusAccess)
  | cmd (w : Word)
  | stage (c : BitVec 6)
  deriving DecidableEq, Repr

end Sys2Proof
end

