-- ==== Sys2Proof/Syntax.lean ====
section
/-! DEFINITION. The instructions: one constructor per row of spec/opcode_table.json. -/

namespace Sys2Proof

/-- The rows of the opcode table: the host bus transactions (format `HBUS`), the commands (format
`CMD`) and the stages (format `STAGE`). The index of `ks` and `rnd` is `STAGE[3:0]`, so `ks i` is
the spec's `KS(i+1)`. Reserved rows keep the code bits their mask leaves free. -/
inductive Instr where
  -- HBUS, R91
  | rd (off : Offset)
  | wrCtrl (data : Word)
  | wrPtChar (data : Word)
  | wrKeyChar (data : Word)
  | wrIgnored (off : Offset) (data : Word)
  | busErrorOff0 (a : BusAccess)
  | busErrorOff1 (a : BusAccess)
  -- CMD, R93
  | nop
  | clrPt
  | clrKey
  | clrIn
  | start
  | ack
  | cmdReserved6to7 (low : BitVec 1)
  | cmdReserved8toF (low : BitVec 3)
  -- STAGE, R97
  | idle
  | load
  | pc1
  | ip
  | fp
  | ks (i : Fin 16)
  | rnd (i : Fin 16)
  | stageReserved05
  | stageReserved06to07 (low : BitVec 1)
  | stageReserved08to0F (low : BitVec 3)
  | stageReserved30to3F (low : BitVec 4)
  deriving DecidableEq, Repr

end Sys2Proof
end

