-- ==== Sys2Proof/WellFormed.lean ====
section
/-! DEFINITION. Which terms of `Instr` stand for an encoding: the operand conditions of the rows of
format `HBUS` (spec/30_encoding.md R91). The rows of the other formats have none. -/

namespace Sys2Proof

/-- `OFF[1:0] = 0` (R66). -/
def Offset.aligned (off : Offset) : Bool := off.extractLsb' 0 2 == 0

/-- The three offsets a write acts on (R39, R91). -/
def Offset.isPort (off : Offset) : Bool := off == 0x004 || off == 0x010 || off == 0x014

/-- The operand conditions of each row. A transaction refused with `BUS_ERROR` is of the row
`OFF[0]=1` when its size is not 4 or bit 0 is set, else of the row `OFF[1]=1`
(DEDUCED from the opcode table's note on the first of the two rows, log 14, safe). -/
def Instr.wellFormed : Instr → Bool
  | .rd off => off.aligned
  | .wrIgnored off _ => off.aligned && !off.isPort
  | .busErrorOff0 a => a.size != 4 || a.off.getLsbD 0
  | .busErrorOff1 a => a.size == 4 && !a.off.getLsbD 0 && a.off.getLsbD 1
  | .wrCtrl _ | .wrPtChar _ | .wrKeyChar _ => true
  | .nop | .clrPt | .clrKey | .clrIn | .start | .ack => true
  | .cmdReserved6to7 _ | .cmdReserved8toF _ => true
  | .idle | .load | .pc1 | .ip | .fp | .ks _ | .rnd _ => true
  | .stageReserved05 | .stageReserved06to07 _ | .stageReserved08to0F _ => true
  | .stageReserved30to3F _ => true

end Sys2Proof
end

