-- ==== Sys2Proof/Decode.lean ====
section
/-! DEFINITION. The decoders of the three formats, total, and the encoder
(spec/30_encoding.md R90 to R98). -/

namespace Sys2Proof

/-- `HBUS` decodes in the order of R91: first a transaction whose size is not 4 or whose offset is
not a multiple of 4 is a bus error, then a read, then a write to one of the three ports, and every
other write is ignored. -/
def decodeHbus (a : BusAccess) : Instr :=
  if a.size ≠ 4 ∨ a.off.getLsbD 0 = true then .busErrorOff0 a
  else if a.off.getLsbD 1 = true then .busErrorOff1 a
  else
    match a.kind with
    | .read => .rd a.off
    | .write data =>
      if a.off = 0x004 then .wrCtrl data
      else if a.off = 0x010 then .wrPtChar data
      else if a.off = 0x014 then .wrKeyChar data
      else .wrIgnored a.off data

/-- The command code `CMD[3:0]` of a data word; bits 31:4 are ignored (R92). -/
def commandCode (w : Word) : BitVec 4 := w.extractLsb' 0 4

/-- The command a code names (R93). -/
def decodeCommandCode (c : BitVec 4) : Instr :=
  if c = 0x0 then .nop
  else if c = 0x1 then .clrPt
  else if c = 0x2 then .clrKey
  else if c = 0x3 then .clrIn
  else if c = 0x4 then .start
  else if c = 0x5 then .ack
  else if c.getLsbD 3 then .cmdReserved8toF (c.extractLsb' 0 3)
  else .cmdReserved6to7 (c.extractLsb' 0 1)

/-- The command a data word written to `CTRL` issues (R92, R93). -/
def decodeCmd (w : Word) : Instr := decodeCommandCode (commandCode w)

/-- The character `CH[7:0]` of a data word written to a character port; bits 31:8 are ignored
(R94). -/
def charCode (w : Word) : Char8 := w.extractLsb' 0 8

/-- The stage a code names: `STAGE[5:4]` is the class, `STAGE[3:0]` the index (R97, R98). -/
def decodeStage (c : BitVec 6) : Instr :=
  let cls : BitVec 2 := c.extractLsb' 4 2
  let idx : BitVec 4 := c.extractLsb' 0 4
  if cls = 1 then .ks idx.toFin
  else if cls = 2 then .rnd idx.toFin
  else if cls = 3 then .stageReserved30to3F idx
  else if idx = 0x0 then .idle
  else if idx = 0x1 then .load
  else if idx = 0x2 then .pc1
  else if idx = 0x3 then .ip
  else if idx = 0x4 then .fp
  else if idx = 0x5 then .stageReserved05
  else if idx.getLsbD 3 then .stageReserved08to0F (idx.extractLsb' 0 3)
  else .stageReserved06to07 (idx.extractLsb' 0 1)

/-- The decoder of the three formats. Every transaction, every command word and every stage code
has a row of the opcode table, so nothing is refused here (R90, R91, R93, R98). -/
def decode : CodeWord → Instr
  | .hbus a => decodeHbus a
  | .cmd w => decodeCmd w
  | .stage c => decodeStage c

/-! ### Stage codes (R97) -/

def stageIdle : BitVec 6 := 0x00
def stageLoad : BitVec 6 := 0x01
def stagePc1 : BitVec 6 := 0x02
def stageIp : BitVec 6 := 0x03
def stageFp : BitVec 6 := 0x04
/-- The code `0x10 + i` of `KS(i+1)`. -/
def stageKs (i : Fin 16) : BitVec 6 := 0x10 + BitVec.ofNat 6 i.val
/-- The code `0x20 + i` of `RND(i+1)`. -/
def stageRnd (i : Fin 16) : BitVec 6 := 0x20 + BitVec.ofNat 6 i.val

/-! ### The encoder -/

/-- The encoding of a well-formed instruction, from the same tables. The ignored bits are written 0,
as R92 and R94 advise software. -/
def encode : Instr → CodeWord
  | .rd off => .hbus ⟨off, 4, .read⟩
  | .wrCtrl data => .hbus ⟨0x004, 4, .write data⟩
  | .wrPtChar data => .hbus ⟨0x010, 4, .write data⟩
  | .wrKeyChar data => .hbus ⟨0x014, 4, .write data⟩
  | .wrIgnored off data => .hbus ⟨off, 4, .write data⟩
  | .busErrorOff0 a => .hbus a
  | .busErrorOff1 a => .hbus a
  | .nop => .cmd 0x0
  | .clrPt => .cmd 0x1
  | .clrKey => .cmd 0x2
  | .clrIn => .cmd 0x3
  | .start => .cmd 0x4
  | .ack => .cmd 0x5
  | .cmdReserved6to7 low => .cmd ((0x3 : BitVec 31) ++ low)
  | .cmdReserved8toF low => .cmd ((0x1 : BitVec 29) ++ low)
  | .idle => .stage stageIdle
  | .load => .stage stageLoad
  | .pc1 => .stage stagePc1
  | .ip => .stage stageIp
  | .fp => .stage stageFp
  | .ks i => .stage (stageKs i)
  | .rnd i => .stage (stageRnd i)
  | .stageReserved05 => .stage 0x05
  | .stageReserved06to07 low => .stage ((0x3 : BitVec 5) ++ low)
  | .stageReserved08to0F low => .stage ((0x1 : BitVec 3) ++ low)
  | .stageReserved30to3F low => .stage ((0x3 : BitVec 2) ++ low)

/-! ### The table's numbering of the bits -/

/-- The 13 bits `WR || OFF` of a transaction (R91). -/
def hbusBits (a : BusAccess) : BitVec 13 :=
  (match a.kind with
    | .read => (0 : BitVec 1)
    | .write _ => (1 : BitVec 1)) ++ a.off

/-- The transaction of size 4 whose 13 bits are `b`; a write carries the data word 0. -/
def hbusOfBits (b : BitVec 13) : BusAccess :=
  ⟨b.extractLsb' 0 12, 4, if b.getLsbD 12 then .write 0 else .read⟩

/-- Why a table word is no encoding of any format. -/
inductive DecodeError where
  /-- No format has this many bits. -/
  | noSuchFormat (nbits : Nat)
  /-- A bit above the format's width is set. -/
  | strayBits (nbits w : Nat)
  deriving DecidableEq, Repr

/-- The code word a word of spec/opcode_table.json stands for. The three formats of the table differ
in their width (R90): 6 bits in one byte are a stage code, 13 bits in two bytes a transaction, four
bytes a command word (log 16). -/
def tableCodeWord (nbits w : Nat) : Except DecodeError CodeWord :=
  if nbits = 8 then
    if w < 2 ^ 6 then .ok (.stage (BitVec.ofNat 6 w)) else .error (.strayBits nbits w)
  else if nbits = 16 then
    if w < 2 ^ 13 then .ok (.hbus (hbusOfBits (BitVec.ofNat 13 w))) else .error (.strayBits nbits w)
  else if nbits = 32 then
    if w < 2 ^ 32 then .ok (.cmd (BitVec.ofNat 32 w)) else .error (.strayBits nbits w)
  else .error (.noSuchFormat nbits)

/-- The instruction the decoder reads from a table word, or why there is none. -/
def decodeTable (nbits w : Nat) : Except DecodeError Instr := (tableCodeWord nbits w).map decode

/-- The host's view of `decodeTable`. -/
def decodeTableWord (nbits w : Nat) : Option Instr := (decodeTable nbits w).toOption

end Sys2Proof
end

