-- ==== Sys2Proof/Config.lean ====
section
/-! DEFINITION. What one build of the engine fixes (the geometry of `TABLES`, the window's base
address) and the values the spec leaves open. -/

namespace Sys2Proof

/-- The table set `TABLES`, a build-time ROM (R7, R45) with the geometry of
spec/41_tables.md R140: 7-bit permutation entries, 5-bit shift amounts, 4-bit S-box entries. Entry
`j` of the spec's one-based notation is entry `j - 1` here; `sbox[g]` is `S(g+1)`, its row `row` and
column `col` are `sbox[g][row][col]`. -/
structure Tables where
  ip : Vector (BitVec 7) 64
  fp : Vector (BitVec 7) 64
  e : Vector (BitVec 7) 48
  p : Vector (BitVec 7) 32
  pc1 : Vector (BitVec 7) 56
  pc2 : Vector (BitVec 7) 48
  shifts : Vector (BitVec 5) 16
  sbox : Vector (Vector (Vector (BitVec 4) 16) 4) 8
  deriving DecidableEq, Repr

namespace Config

/-- DESIGN CHOICE (log 8, safe). The value that draw number `n` gives for the trace word at byte
offset `off` when no run has written that word (R291, U1): an arbitrary word under no law. -/
opaque freeWord (n off : Nat) : Word

/-- DESIGN CHOICE (log 15, safe). The bit a permutation delivers for a table entry `p` outside
`1..w`. R126 states no result there, and `FATAL` keeps every stage from using such a table. -/
opaque freeBit (w p : Nat) : Bool

/-- DESIGN CHOICE (log 15, safe). The result of a rotation by an amount outside `0..27`. R128 states
no result there, and `FATAL` keeps every stage from using such a schedule. -/
opaque freeRotation (x : BitVec 28) (k : Nat) : BitVec 28

/-- DESIGN CHOICE (log 6, safe). The 4 KiB page the platform places the window at (R8, U11). -/
opaque basePage : Nat

/-- The window's base address `BASE`, any 4 KiB-aligned address (R8, D3). -/
def base : Nat := basePage * 4096

end Config

end Sys2Proof
end

