-- ==== Sys2Proof/Machine/Datapath.lean ====
section
/-! DEFINITION. The combinational datapath: permutation, XOR, rotation, substitution and the round
(spec/40_primitives.md R126 to R131; spec/43_round_function.md R180 to R186). -/

namespace Sys2Proof.Machine

/-- `pos(v, p) = v[w - p]`, the binary digit at position `p` counted from the left, `1 ≤ p ≤ w`
(R10). Outside that range the bit is a free value (log 15). -/
def pos {w : Nat} (v : BitVec w) (p : Nat) : Bool :=
  if 1 ≤ p ∧ p ≤ w then v.getLsbD (w - p) else Config.freeBit w p

/-- `permute(in, T)`: output position `j` is input position `T[j]` (R126). -/
def permute {w m : Nat} (v : BitVec w) (t : Vector (BitVec 7) m) : BitVec m :=
  BitVec.ofNat m (t.toList.foldl (fun acc p => 2 * acc + (pos v p.toNat).toNat) 0)

/-- `xor(a, b)` (R127). -/
def xor {w : Nat} (a b : BitVec w) : BitVec w := a ^^^ b

/-- `rotl28(x, k) = x[27-k:0] || x[27:28-k]`, for `0 ≤ k ≤ 27` (R128). Outside that range the
result is a free value (log 15). -/
def rotl28 (x : BitVec 28) (k : Nat) : BitVec 28 :=
  if k ≤ 27 then (x <<< k) ||| (x >>> (28 - k)) else Config.freeRotation x k

/-- `first(v)` and `last(v)` of a value of `2h` binary digits (R129). -/
def first {h : Nat} (v : BitVec (2 * h)) : BitVec h := v.extractLsb' h h
def last {h : Nat} (v : BitVec (2 * h)) : BitVec h := v.extractLsb' 0 h

/-- The row `b[5] || b[0]` of a 6-bit group (R130). -/
def sboxRow (b : BitVec 6) : BitVec 2 := b.extractLsb' 5 1 ++ b.extractLsb' 0 1

/-- The column `b[4:1]` of a 6-bit group (R130). -/
def sboxCol (b : BitVec 6) : BitVec 4 := b.extractLsb' 1 4

/-- `SBoxLookup(g, b) = S(g+1)[row][col]` (R130). -/
def sboxLookup (T : Tables) (g : Fin 8) (b : BitVec 6) : BitVec 4 :=
  ((T.sbox[g])[(sboxRow b).toFin])[(sboxCol b).toFin]

/-- `Substitute(x)`: the eight 6-bit groups through the eight S-boxes, group 0 first (R131). -/
def substitute (T : Tables) (x : BitVec 48) : BitVec 32 :=
  sboxLookup T 0 (x.extractLsb' 42 6) ++ sboxLookup T 1 (x.extractLsb' 36 6) ++
  sboxLookup T 2 (x.extractLsb' 30 6) ++ sboxLookup T 3 (x.extractLsb' 24 6) ++
  sboxLookup T 4 (x.extractLsb' 18 6) ++ sboxLookup T 5 (x.extractLsb' 12 6) ++
  sboxLookup T 6 (x.extractLsb' 6 6) ++ sboxLookup T 7 (x.extractLsb' 0 6)

/-- The five values of one round (R180). -/
structure RoundOut where
  exp : BitVec 48
  mix : BitVec 48
  sub : BitVec 32
  pbox : BitVec 32
  newr : BitVec 32
  deriving DecidableEq, Repr

/-- Expansion (R181). -/
def expand (T : Tables) (r : BitVec 32) : BitVec 48 := permute r T.e

/-- The source's `f(r, k)`, the P-box output (R184, R186). -/
def feistel (T : Tables) (r : BitVec 32) (k : BitVec 48) : BitVec 32 :=
  permute (substitute T (xor (expand T r) k)) T.p

/-- `Round(l, r, k)`: expansion, key mixing, substitution, permutation, combination
(R181 to R186). -/
def round (T : Tables) (l r : BitVec 32) (k : BitVec 48) : RoundOut :=
  let exp := expand T r
  let mix := xor exp k
  let sub := substitute T mix
  let pbox := permute sub T.p
  ⟨exp, mix, sub, pbox, xor l pbox⟩

end Sys2Proof.Machine
end

