-- ==== Sys2Proof/Machine/Layout.lean ====
section
/-! DEFINITION. The register window: what stands at each offset, and the trace memory's fields with
their places (spec/20_memory.md R60 to R65; spec/10_state.md R41 to R44). -/

namespace Sys2Proof.Machine

/-- The fields of a round record (R42). -/
inductive RndField where
  | l | r | exp | k | xor | sbox | pbox | newr
  deriving DecidableEq, Repr

/-- The fields of a key-generation record (R43). -/
inductive KgField where
  | cBefore | dBefore | shift | cAfter | dAfter | k
  deriving DecidableEq, Repr

/-- The fields of the trace memory (R41 to R44). Record `i` of the spec is index `i - 1` here. -/
inductive TField where
  | ptHex | keyHex | ptBin | keyBin | pc1Out | ipOut | ctBin | ctHex
  | rnd (f : RndField) (i : Fin 16)
  | kg (f : KgField) (i : Fin 16)
  | k (i : Fin 16)
  deriving DecidableEq, Repr

/-- The place of a field in its round record (R63). -/
def RndField.offset : RndField → Nat
  | .l => 0x00 | .r => 0x08 | .exp => 0x10 | .k => 0x18
  | .xor => 0x20 | .sbox => 0x28 | .pbox => 0x30 | .newr => 0x38

/-- The place of a field in its key-generation record (R63). -/
def KgField.offset : KgField → Nat
  | .cBefore => 0x00 | .dBefore => 0x08 | .shift => 0x10
  | .cAfter => 0x18 | .dAfter => 0x20 | .k => 0x28

/-- The byte offset of a field's first word (R63). -/
def TField.offset : TField → Nat
  | .ptHex => 0x100
  | .keyHex => 0x110
  | .ptBin => 0x120
  | .keyBin => 0x128
  | .pc1Out => 0x130
  | .ipOut => 0x138
  | .ctBin => 0x140
  | .ctHex => 0x148
  | .rnd f i => 0x400 + 0x40 * i.val + f.offset
  | .kg f i => 0x800 + 0x40 * i.val + f.offset
  | .k i => 0xC00 + 0x8 * i.val

/-- How many words a field takes: four for an ASCII field (R64), two for a slot (R62). -/
def TField.words : TField → Nat
  | .ptHex | .keyHex | .ctHex => 4
  | _ => 2

/-- The width in bits of a field's value (R41 to R44). -/
def TField.width : TField → Nat
  | .ptHex | .keyHex | .ctHex => 128
  | .ptBin | .keyBin | .ipOut | .ctBin => 64
  | .pc1Out => 56
  | .rnd f _ =>
    match f with
    | .l | .r | .sbox | .pbox | .newr => 32
    | .exp | .k | .xor => 48
  | .kg f _ =>
    match f with
    | .cBefore | .dBefore | .cAfter | .dAfter => 28
    | .shift => 5
    | .k => 48
  | .k _ => 48

/-- Whether a byte offset is that of a word of some trace field (R61, R63): the header, the round
records, the six slots of each key-generation record, the subkeys. -/
def isTraceOffset (n : Nat) : Bool :=
  n % 4 == 0 &&
    ((0x100 ≤ n && n < 0x158) ||
     (0x400 ≤ n && n < 0x800) ||
     (0x800 ≤ n && n < 0xC00 && n % 0x40 < 0x30) ||
     (0xC00 ≤ n && n < 0xC80))

/-- What stands at an offset of the window. -/
inductive Region where
  | id | ctrl | status | instat | ptChar | keyChar | trace | reserved
  deriving DecidableEq, Repr

/-- The register map (R60, R61, R63, R65). -/
def regionOf (off : Offset) : Region :=
  if off = 0x000 then .id
  else if off = 0x004 then .ctrl
  else if off = 0x008 then .status
  else if off = 0x00C then .instat
  else if off = 0x010 then .ptChar
  else if off = 0x014 then .keyChar
  else if isTraceOffset off.toNat then .trace
  else .reserved

end Sys2Proof.Machine
end

