-- ==== Sys2Proof/Machine/State.lean ====
section
/-! DEFINITION. The state of the engine (spec/10_state.md R20), of the host that drives it and of
their interleaving, as plain data; the state after reset; the reasons a step can stop. -/

namespace Sys2Proof.Machine

/-- The registers of one input field, plaintext or key: `BUF`, `CNT`, `TRUNC`, `MAL`
(R24, R25, R26, R29). -/
structure InputField where
  buf : BitVec 64
  cnt : BitVec 5
  trunc : Bool
  mal : Bool
  deriving DecidableEq, Repr

/-- A cleared input field: the empty string (R232). It is also the field's reset value
(R24, R25, R26, R29). -/
def InputField.empty : InputField := ⟨0, 0, false, false⟩

/-- The field `F` of spec/45_host_interface.md: the plaintext or the key. -/
inductive InputName where
  | pt | key
  deriving DecidableEq, Repr

/-- The written words of the trace memory, by byte offset, offsets rising. A word that is not listed
has been written by no run since reset and holds no value (R291). The engine has word accesses only
and no byte order (R66, R70), so the unit is the word (log 9). -/
abbrev Memory := List (Nat × Word)

/-- The canonical form: offsets strictly rising. An unlisted word reads as no fixed value, so no
entry is redundant. -/
def Memory.wf : Memory → Bool
  | [] => true
  | [_] => true
  | (a, _) :: (b, w) :: m => decide (a < b) && Memory.wf ((b, w) :: m)

/-- The engine's answer to a bus access, as the host's bus carries it (R230, R264; log 4). -/
inductive Response where
  /-- No access has been answered since reset. -/
  | none
  /-- A read was accepted and returned this word. -/
  | read (data : Word)
  /-- A write was accepted. -/
  | written
  /-- A read was refused with the bus error response and returned this word. -/
  | readError (data : Word)
  /-- A write was refused with the bus error response. -/
  | writeError
  deriving DecidableEq, Repr

/-- An operation of a host program (R99): one bus transaction, or `poll`, which repeats `rd off`
until `(value & mask) = val`. -/
inductive HostOp where
  | access (a : BusAccess)
  | poll (off : Offset) (mask val : Word)
  deriving DecidableEq, Repr

/-- What happens in a step: the host performs its next operation, the engine takes its step, or the
reset input is asserted or released (R71, R274, R290). -/
inductive Turn where
  | host | engine | assertReset | releaseReset
  deriving DecidableEq, Repr

end Sys2Proof.Machine

namespace Sys2Proof.Machine

/-- The whole machine. The fields up to `trace` are the engine's (R20), after `tables`, its ROM
(R45). The last five are the model's own: they hold the outside world (logs 1, 3, 4, 8, 10). -/
structure State where
  /-- `TABLES` (R7, R45). No step changes it (log 5). -/
  tables : Tables
  /-- `C` and `D`, the key-schedule registers (R22). -/
  c : BitVec 28
  d : BitVec 28
  /-- `L` and `R`, the half-block registers (R23). -/
  l : BitVec 32
  r : BitVec 32
  /-- `PTBUF`, `PT_CNT`, `PT_TRUNC`, `PT_MAL`. -/
  pt : InputField
  /-- `KEYBUF`, `KEY_CNT`, `KEY_TRUNC`, `KEY_MAL`. -/
  key : InputField
  /-- `STAGE`, the code of the next stage (R27). -/
  stage : BitVec 6
  /-- `BUSY` (R31). -/
  busy : Bool
  /-- `VALID` (R32). -/
  valid : Bool
  /-- `ERR_MALFORMED` (R33). -/
  errMalformed : Bool
  /-- `ERR_BUSY` (R34). -/
  errBusy : Bool
  /-- `ERR_CMD` (R35). -/
  errCmd : Bool
  /-- `FATAL` (R36). -/
  fatal : Bool
  /-- The trace memory `T` (R40). -/
  trace : Memory
  /-- MODEL'S OWN: whether the engine's reset input is asserted (R290, log 10). -/
  inReset : Bool
  /-- MODEL'S OWN: how many times an unspecified trace word has been drawn (log 8). -/
  draws : Nat
  /-- MODEL'S OWN: the answer to the last bus access (log 4). -/
  response : Response
  /-- MODEL'S OWN: the host operations still to be performed, first one first (log 3). -/
  program : List HostOp
  /-- MODEL'S OWN: the interleaving still to be followed (log 1). -/
  sched : List Turn
  deriving DecidableEq, Repr

/-- Why the machine stops. -/
inductive Fault where
  /-- `ReservedStage` (R266, R98): raised by the four `STAGE_RESERVED` rows, and by `IDLE` when
  `BUSY = 1`. Safe: the hardware cannot reach such a state. -/
  | reservedStage
  deriving DecidableEq, Repr

/-- Why an instruction has no meaning. -/
inductive Refusal where
  /-- Raised by an arm of `exec` whose instruction has no meaning yet. Safe. No arm raises it. -/
  | notModelled (mnemonic : String)
  deriving DecidableEq, Repr

/-- The state in which reset, at its end, leaves an engine built with the table set `T` (R290, R291,
R292). `C`, `D`, `L`, `R` are unspecified there and 0 here (DESIGN CHOICE, log 7, unsafe). -/
def State.resetWith (T : Tables) : State where
  tables := T
  c := 0
  d := 0
  l := 0
  r := 0
  pt := .empty
  key := .empty
  stage := 0x00
  busy := false
  valid := false
  errMalformed := false
  errBusy := false
  errCmd := false
  fatal := !T.wellFormed
  trace := []
  inReset := false
  draws := 0
  response := .none
  program := []
  sched := []

/-- The machine right after reset, built with `DES_TABLES`. -/
def State.reset : State := State.resetWith desTables

end Sys2Proof.Machine
end

