-- ==== Sys2Proof/Machine/Operands.lean ====
section
/-! DEFINITION. Operand forms: the character alphabet, hex conversion, normalisation, and the
placement of a hex digit (spec/30_encoding.md R95, R96; spec/40_primitives.md R121 to R125). -/

namespace Sys2Proof.Machine

/-- `IsHex(CH)` (R95, R121). -/
def isHex (ch : Char8) : Bool :=
  (0x30 ≤ ch && ch ≤ 0x39) || (0x41 ≤ ch && ch ≤ 0x46) || (0x61 ≤ ch && ch ≤ 0x66)

/-- `HexVal(CH)` of R95, for a hex digit. -/
def hexDigit (ch : Char8) : BitVec 4 :=
  if ch ≤ 0x39 then (ch - 0x30).setWidth 4
  else if ch ≤ 0x46 then (ch - 0x37).setWidth 4
  else (ch - 0x57).setWidth 4

/-- `HexVal(CH)`, undefined outside the alphabet (R121). -/
def hexVal? (ch : Char8) : Option (BitVec 4) := if isHex ch then some (hexDigit ch) else none

/-- `AsciiHexDigit(d)`: the uppercase code of a digit (R124). -/
def asciiHexDigit (d : BitVec 4) : Char8 :=
  if d ≤ 9 then 0x30 + d.setWidth 8 else 0x37 + d.setWidth 8

/-- Hex digit `k` of a 64-bit value, counted from the left: bits `63-4k : 60-4k` (R24, R64). -/
def nibble (v : BitVec 64) (k : Nat) : BitVec 4 := v.extractLsb' (60 - 4 * k) 4

/-- `AsciiHex16(v)`: the sixteen uppercase digits of a value, the first one in the high bits
(R201). -/
def asciiHex16 (v : BitVec 64) : BitVec 128 :=
  (List.range 16).foldl (fun acc k => (acc <<< 8) ||| (asciiHexDigit (nibble v k)).setWidth 128) 0

/-- `BUF[63-4n : 60-4n] <- d` (R96). -/
def placeNibble (buf : BitVec 64) (n : Nat) (d : BitVec 4) : BitVec 64 :=
  (buf &&& ~~~((0xF : BitVec 64) <<< (60 - 4 * n))) ||| (d.setWidth 64 <<< (60 - 4 * n))

/-! ### Strings -/

/-- The number a string of hex digits writes, first digit most significant. -/
def hexNat (s : List Char8) : Nat := s.foldl (fun acc ch => 16 * acc + (hexDigit ch).toNat) 0

/-- The five errors of the engine (R260). -/
inductive HwError where
  | malformedInput | errBusy | errCmd | busError | invariantViolation
  deriving DecidableEq, Repr

/-- `hexToBinary(s)`: four binary digits for each hex digit, most significant first; it fails if a
character is no hex digit (R122). -/
def hexToBinary (s : List Char8) : Except HwError (BitVec (4 * s.length)) :=
  if s.all isHex then .ok (BitVec.ofNat _ (hexNat s)) else .error .malformedInput

/-- `binaryToHex(b)`: character `k` is the uppercase digit of bits `4n-1-4k : 4n-4-4k` (R123). -/
def binaryToHex {n : Nat} (b : BitVec (4 * n)) : List Char8 :=
  (List.range n).map fun k => asciiHexDigit (b.extractLsb' (4 * n - 4 - 4 * k) 4)

/-- The uppercase form of a character of the alphabet (R121, R123). -/
def upper (ch : Char8) : Char8 := if 0x61 ≤ ch ∧ ch ≤ 0x7A then ch - 0x20 else ch

/-- `Normalize(s)`: truncated to 16 characters, padded on the right with `'0'` (R125). -/
def normalize (s : List Char8) : List Char8 := (s ++ List.replicate 16 0x30).take 16

/-- The 64-bit value the engine uses for a string: `hexToBinary(Normalize(s))` (R125). -/
def hexBlock (s : List Char8) : BitVec 64 := BitVec.ofNat 64 (hexNat (normalize s))

/-- The form in which a CipherTrace holds an input string: normalised, in upper case
(spec/90_conflicts.md C6; R41, R208). -/
def normalText (s : List Char8) : List Char8 := (normalize s).map upper

/-- The characters of a string side by side, the first one in the high bits; for sixteen of them the
128 bits of an ASCII field (R64). -/
def packChars (s : List Char8) : BitVec 128 :=
  s.foldl (fun acc ch => (acc <<< 8) ||| ch.setWidth 128) 0

/-- The sixteen ASCII codes of a 128-bit ASCII field, `c_0` first (R64). -/
def asciiChars (v : BitVec 128) : List Char8 :=
  (List.range 16).map fun k => v.extractLsb' (120 - 8 * k) 8

end Sys2Proof.Machine
end

