-- ==== Sys2Proof/Machine/Flags.lean ====
section
/-! DEFINITION. The status views and the errors: `ID`, `STATUS`, `INSTAT`, and raising an error as
one shared operation (spec/10_state.md R30 to R38; spec/60_exceptions.md R260 to R265). -/

namespace Sys2Proof.Machine

/-- `ID`, a constant: the ASCII bytes `D`, `E`, `S`, `1` (R37). -/
def idWord : Word := 0x44455331

/-- `STATUS` (R30): `BUSY`, `VALID`, `ERR_MALFORMED`, `ERR_BUSY`, `ERR_CMD`, `FATAL` in bits 0 to 5,
0 in bits 7:6, `STAGE` in bits 13:8, 0 above. -/
def State.statusWord (s : State) : Word :=
  (0 : BitVec 18) ++ s.stage ++ (0 : BitVec 2) ++ BitVec.ofBool s.fatal ++ BitVec.ofBool s.errCmd ++
    BitVec.ofBool s.errBusy ++ BitVec.ofBool s.errMalformed ++ BitVec.ofBool s.valid ++
    BitVec.ofBool s.busy

/-- The seven bits of `INSTAT` for one input field: `CNT` in bits 4:0, `TRUNC`, `MAL` (R38). -/
def InputField.statBits (f : InputField) : BitVec 7 :=
  BitVec.ofBool f.mal ++ BitVec.ofBool f.trunc ++ f.cnt

/-- `INSTAT` (R38): the plaintext's bits in 6:0, the key's in 14:8. -/
def State.instatWord (s : State) : Word :=
  (0 : BitVec 17) ++ s.key.statBits ++ (0 : BitVec 1) ++ s.pt.statBits

/-- `raise E`: set the status bit that records the error, and nothing else (R11, R260, R268).
`BUS_ERROR` has no status bit (R264). -/
def State.raise (e : HwError) (s : State) : State :=
  match e with
  | .malformedInput => { s with errMalformed := true }
  | .errBusy => { s with errBusy := true }
  | .errCmd => { s with errCmd := true }
  | .busError => s
  | .invariantViolation => { s with fatal := true }

/-- Clearing the three sticky error bits (R236). There is no other return from an error (R269). -/
def State.clearErrors (s : State) : State :=
  { s with errMalformed := false, errBusy := false, errCmd := false }

end Sys2Proof.Machine
end

