-- ==== Sys2Proof/Machine/Ops.lean ====
section
/-! DEFINITION. The shared operations over the trace memory, the registers and the bus
(spec/20_memory.md R60 to R70; spec/45_host_interface.md R239, R243; spec/44_orchestrator.md R206). -/

namespace Sys2Proof.Machine

/-! ### The trace memory -/

/-- The word written at a byte offset, if any. -/
def Memory.get : Memory → Nat → Option Word
  | [], _ => none
  | (k, w) :: m, a => if k = a then some w else Memory.get m a

/-- Write the word at a byte offset, keeping the offsets rising. -/
def Memory.store : Memory → Nat → Word → Memory
  | [], a, w => [(a, w)]
  | (k, x) :: m, a, w =>
    if a < k then (a, w) :: (k, x) :: m
    else if a = k then (a, w) :: m
    else (k, x) :: Memory.store m a w

/-- Write consecutive words from a byte offset on. -/
def Memory.storeWords : Memory → Nat → List Word → Memory
  | m, _, [] => m
  | m, a, w :: ws => Memory.storeWords (Memory.store m a w) (a + 4) ws

/-- The two words of a slot, the high word first (R62). -/
def slotWords (v : BitVec 64) : List Word := [v.extractLsb' 32 32, v.extractLsb' 0 32]

/-- The four words of an ASCII field, the first character in the high byte of the first word
(R64). -/
def asciiWords (v : BitVec 128) : List Word :=
  [v.extractLsb' 96 32, v.extractLsb' 64 32, v.extractLsb' 32 32, v.extractLsb' 0 32]

/-- `T.f <- v` for a slot field: `zext_64(v)` in its two words (R62). -/
def Memory.putSlot {w : Nat} (m : Memory) (f : TField) (v : BitVec w) : Memory :=
  Memory.storeWords m f.offset (slotWords (v.setWidth 64))

/-- `T.f <- v` for an ASCII field (R64). -/
def Memory.putAscii (m : Memory) (f : TField) (v : BitVec 128) : Memory :=
  Memory.storeWords m f.offset (asciiWords v)

/-- The trace word at a byte offset: what a run wrote there, else the draw that is due (R291, U1). -/
def State.traceWord (s : State) (off : Nat) : Word :=
  (Memory.get s.trace off).getD (Config.freeWord s.draws off)

/-- `T.f` for a slot field: its two words, the high word first (R62). -/
def State.slot (s : State) (f : TField) : BitVec 64 :=
  s.traceWord f.offset ++ s.traceWord (f.offset + 4)

/-- After a read of these trace words: an unwritten word among them has used up one draw. -/
def State.noteReads (offs : List Nat) (s : State) : State :=
  if offs.all fun a => (Memory.get s.trace a).isSome then s else { s with draws := s.draws + 1 }

/-- After a read of a slot field. -/
def State.noteSlot (f : TField) (s : State) : State := s.noteReads [f.offset, f.offset + 4]

/-! ### The registers -/

/-- The registers of the field `F`. -/
def State.input (s : State) : InputName → InputField
  | .pt => s.pt
  | .key => s.key

/-- Write the registers of the field `F`. -/
def State.setInput (s : State) (n : InputName) (f : InputField) : State :=
  match n with
  | .pt => { s with pt := f }
  | .key => { s with key := f }

/-! ### Bus accesses -/

/-- The engine answers a bus access. -/
def State.respond (a : Response) (s : State) : State := { s with response := a }

/-- The bus error response: no state of the engine changes, and a read returns 0 (R66, R264). -/
def State.busError (kind : AccessKind) (s : State) : State :=
  (s.raise .busError).respond <|
    match kind with
    | .read => .readError 0
    | .write _ => .writeError

/-- The word a read at an aligned offset returns (R230). -/
def State.readWord (s : State) (off : Offset) : Word :=
  match regionOf off with
  | .id => idWord
  | .status => s.statusWord
  | .instat => s.instatWord
  | .ctrl | .ptChar | .keyChar => 0
  | .trace => s.traceWord off.toNat
  | .reserved => 0

/-- After a read at an aligned offset: a read has no side effect on the engine (R68); a read of an
unwritten trace word has used up one draw. -/
def State.noteRead (off : Offset) (s : State) : State :=
  match regionOf off with
  | .trace => s.noteReads [off.toNat]
  | _ => s

/-- A write to `CTRL` or to a character port: accepted by the bus; without effect while `FATAL = 1`
(R239); otherwise it has the effect `f`. -/
def State.portWrite (f : State → State) (s : State) : State :=
  (if s.fatal then s else f s).respond .written

/-- An effect that needs the engine idle: while `BUSY = 1` it is refused with `ERR_BUSY` and nothing
else changes (R262). -/
def State.whenIdle (f : State → State) (s : State) : State :=
  if s.busy then s.raise .errBusy else f s

/-! ### Engine steps -/

/-- One engine step: `require BUSY = 1`, otherwise there is no step (R200, R206, log 12); the stage
takes effect and `STAGE` moves to the successor, all at once. -/
def State.engineStep (f : State → State) (succ : BitVec 6) (s : State) : State :=
  if s.busy then { f s with stage := succ } else s

end Sys2Proof.Machine
end

