-- ==== Sys2Proof/Machine/Agents.lean ====
section
/-! DEFINITION. The two agents, the reset input and their interleaving: whose turn it is, what the
engine fetches, how the host performs its program (spec/20_memory.md R71; spec/30_encoding.md R99,
R100; spec/60_exceptions.md R274; spec/70_reset_and_hazards.md R290, R303), and the window's place in
the host's address space (R8, R60). -/

namespace Sys2Proof.Machine

/-! ### The host's address space -/

/-- The host address of an offset of the window: `BASE + offset` (R60). -/
def hostAddress (off : Offset) : Nat := Config.base + off.toNat

/-- The window offset a host address falls on, if it falls in the window (R8, R60). -/
def windowOffset? (addr : Nat) : Option Offset :=
  if Config.base ≤ addr ∧ addr < Config.base + 4096 then some (BitVec.ofNat 12 (addr - Config.base))
  else none

/-! ### The host language (R99, R100) -/

/-- `wr OFF, VAL`: a write of one word. -/
def HostOp.wr (off : Offset) (val : Word) : HostOp := .access ⟨off, 4, .write val⟩

/-- `rd OFF`: a read of one word. -/
def HostOp.rd (off : Offset) : HostOp := .access ⟨off, 4, .read⟩

/-- `cmd NAME`, with the command's code (R93). -/
def HostOp.cmd (code : BitVec 4) : HostOp := .wr 0x004 (code.setWidth 32)

/-- `ptc 'c'`. -/
def HostOp.ptc (ch : Char8) : HostOp := .wr 0x010 (ch.setWidth 32)

/-- `keyc 'c'`. -/
def HostOp.keyc (ch : Char8) : HostOp := .wr 0x014 (ch.setWidth 32)

/-- `pts "s"`. -/
def HostOp.pts (str : List Char8) : List HostOp := str.map HostOp.ptc

/-- `keys "s"`. -/
def HostOp.keys (str : List Char8) : List HostOp := str.map HostOp.keyc

/-- `wait`: poll `STATUS` until `BUSY = 0`. -/
def HostOp.wait : HostOp := .poll 0x008 0x00000001 0x00000000

/-- `rd64 OFF`: `rd OFF`, then `rd OFF+4`. For the offsets `0xFFC` to `0xFFF` the spec does not say
what `OFF+4` is, for it lies outside the window; here the sum is a 12-bit offset, so the second read
wraps to offset 0 to 3 (DESIGN CHOICE, log 19, unsafe). -/
def HostOp.rd64 (off : Offset) : List HostOp := [.rd off, .rd (off + 4)]

/-- The host's order of work for one run (R293): read `ID` and `STATUS`, clear both fields, write the
two strings, `START`, wait for `BUSY = 0`, read `STATUS` again. -/
def HostOp.bootRun (pt key : List Char8) : List HostOp :=
  [.rd 0x000, .rd 0x008, .cmd 0x3] ++ HostOp.pts pt ++ HostOp.keys key ++
    [.cmd 0x4, .wait, .rd 0x008]

/-! ### Whose turn it is -/

/-- The next to move. Once the interleaving is exhausted the choice is a fair one: an asserted reset
ends, else the engine moves while it has a step, else the host (R303; DESIGN CHOICE, log 2). -/
def State.turn (s : State) : Turn :=
  match s.sched with
  | t :: _ => t
  | [] => if s.inReset then .releaseReset else if s.busy then .engine else .host

/-- The interleaving after this turn. -/
def State.passTurn (s : State) : State := { s with sched := s.sched.tail }

/-- Move past the host's current operation. -/
def State.passOp (s : State) : State := { s with program := s.program.tail }

/-! ### The engine -/

/-- The stage the engine's turn executes: the one `STAGE` names while `BUSY = 1`, else none, which is
`IDLE` (R200, R206). -/
def State.fetchStage (s : State) : Instr := if s.busy then decodeStage s.stage else .idle

/-- The engine's turn: while reset is asserted it takes no step (R290); else it executes the stage. -/
def State.engineTurn (run : Instr → State → Host.Outcome State Fault Refusal) (s : State) :
    Host.Outcome State Fault Refusal :=
  if s.inReset then .next s else run s.fetchStage s

/-! ### The host -/

/-- The word a read returned, for `poll`. A read refused with the bus error response returned 0
(R66, log 3). -/
def Response.word : Response → Word
  | .read w | .readError w => w
  | .none | .written | .writeError => 0

/-- A `poll` is over when the masked word has the awaited value (R99). -/
def pollDone (a : Response) (mask val : Word) : Bool := (a.word &&& mask) == val

/-- The host's operation (R71, R99): it is decoded and run; a `poll` stays in the program until the
word it read has the awaited value; a host with no operation left does nothing. -/
def State.hostOperation (run : Instr → State → Host.Outcome State Fault Refusal) (s : State) :
    Host.Outcome State Fault Refusal :=
  match s.program with
  | [] => .next s
  | .access a :: _ => run (decodeHbus a) s.passOp
  | .poll off mask val :: _ =>
    match run (decodeHbus ⟨off, 4, .read⟩) s with
    | .next t => .next (if pollDone t.response mask val then t.passOp else t)
    | .fault e => .fault e
    | .refused e => .refused e

/-- The host's turn: while reset is asserted the engine accepts no bus access (R290), and the host's
operation waits (log 10); else it is performed. -/
def State.hostTurn (run : Instr → State → Host.Outcome State Fault Refusal) (s : State) :
    Host.Outcome State Fault Refusal :=
  if s.inReset then .next s else s.hostOperation run

/-! ### Reset -/

/-- The reset input is asserted. What the engine's elements hold until it is released no rule says
and nothing reads (R290, log 10). -/
def State.assertReset (s : State) : State := { s with inReset := true }

/-- The end of reset: every element of the engine has its reset value, and `FATAL` is evaluated again
for the same `TABLES` (R290, R292). The host and the interleaving are outside the engine and go on
(log 10). -/
def State.afterReset (s : State) : State :=
  { State.resetWith s.tables with
    draws := s.draws
    program := s.program
    sched := s.sched }

/-- The reset input is released, which ends a reset if it was asserted (R290). -/
def State.releaseReset (s : State) : State := if s.inReset then s.afterReset else s

/-! ### Placing an instruction where the next step fetches it (log 16) -/

/-- Put a code word where the next step fetches it: a transaction, or the `WR_CTRL` that issues a
command, becomes the host's next operation and the turn is the host's; a stage code goes to `STAGE`
and the turn is the engine's, with `BUSY = 1` unless the code is `IDLE`. The reset input is released,
since nothing is fetched while it is asserted. -/
def State.withCodeWord (s : State) : CodeWord → State
  | .hbus a =>
    { s with inReset := false, program := .access a :: s.program, sched := .host :: s.sched }
  | .cmd w =>
    { s with inReset := false, program := .wr 0x004 w :: s.program, sched := .host :: s.sched }
  | .stage c =>
    { s with inReset := false, stage := c, busy := c != 0, sched := .engine :: s.sched }

end Sys2Proof.Machine
end

