-- ==== Sys2Proof/Machine/CharInput.lean ====
section
/-! DEFINITION. Character input (spec/45_host_interface.md R238, R241). -/

namespace Sys2Proof.Machine

/-- What a character does to an input field: a hex digit takes the next place or, when sixteen are
held, is dropped and sets `TRUNC`; any other character sets `MAL` (R238). -/
def InputField.charIn (f : InputField) (ch : Char8) : InputField :=
  if isHex ch then
    if f.cnt < 16 then
      { f with buf := placeNibble f.buf f.cnt.toNat (hexDigit ch), cnt := f.cnt + 1 }
    else { f with trunc := true }
  else { f with mal := true }

/-- The effect of `CharIn(F, data)` past the `FATAL` check (R238). -/
def charInEffect (n : InputName) (data : Word) (s : State) : State :=
  s.whenIdle fun s => s.setInput n ((s.input n).charIn (charCode data))

/-- `WR_PT_CHAR` is `CharIn(PT, data)` (R238). -/
def execWrPtChar (data : Word) (s : State) : Host.Outcome State Fault Refusal :=
  .next (s.portWrite (charInEffect .pt data))

/-- `WR_KEY_CHAR` is `CharIn(KEY, data)` (R241). -/
def execWrKeyChar (data : Word) (s : State) : Host.Outcome State Fault Refusal :=
  .next (s.portWrite (charInEffect .key data))

end Sys2Proof.Machine
end

