-- ==== Sys2Proof/Machine/Commands.lean ====
section
/-! DEFINITION. `WR_CTRL` and the commands (spec/45_host_interface.md R231 to R237, R239, R242). The
meaning of a command row is the `WR_CTRL` that issues it, so each is gated by `FATAL` (log 13). -/

namespace Sys2Proof.Machine

/-- The effect of `CLR_PT` (R232). -/
def clrPtEffect (s : State) : State := s.whenIdle fun s => s.setInput .pt .empty

/-- The effect of `CLR_KEY` (R233). -/
def clrKeyEffect (s : State) : State := s.whenIdle fun s => s.setInput .key .empty

/-- The effect of `CLR_IN`: both clears (R234). -/
def clrInEffect (s : State) : State :=
  s.whenIdle fun s => (s.setInput .pt .empty).setInput .key .empty

/-- The effect of `START` (R235). -/
def startEffect (s : State) : State :=
  s.whenIdle fun s =>
    if s.pt.mal ∨ s.key.mal then { s.raise .malformedInput with valid := false }
    else { s with errMalformed := false, valid := false, busy := true, stage := stageLoad }

/-- The effect of `ACK` (R236). -/
def ackEffect (s : State) : State := s.clearErrors

/-- The effect of a reserved command (R237). -/
def reservedEffect (s : State) : State := s.raise .errCmd

/-- The `case data[3:0]` of `WR_CTRL` (R242). -/
def commandEffect (code : BitVec 4) (s : State) : State :=
  if code = 0x0 then s
  else if code = 0x1 then clrPtEffect s
  else if code = 0x2 then clrKeyEffect s
  else if code = 0x3 then clrInEffect s
  else if code = 0x4 then startEffect s
  else if code = 0x5 then ackEffect s
  else reservedEffect s

/-- `WR_CTRL` (R242). -/
def execWrCtrl (data : Word) (s : State) : Host.Outcome State Fault Refusal :=
  .next (s.portWrite (commandEffect (commandCode data)))

/-- `NOP` (R231). -/
def execNop (s : State) : Host.Outcome State Fault Refusal := .next (s.portWrite fun s => s)

/-- `CLR_PT` (R232). -/
def execClrPt (s : State) : Host.Outcome State Fault Refusal := .next (s.portWrite clrPtEffect)

/-- `CLR_KEY` (R233). -/
def execClrKey (s : State) : Host.Outcome State Fault Refusal := .next (s.portWrite clrKeyEffect)

/-- `CLR_IN` (R234). -/
def execClrIn (s : State) : Host.Outcome State Fault Refusal := .next (s.portWrite clrInEffect)

/-- `START` (R235). -/
def execStart (s : State) : Host.Outcome State Fault Refusal := .next (s.portWrite startEffect)

/-- `ACK` (R236). -/
def execAck (s : State) : Host.Outcome State Fault Refusal := .next (s.portWrite ackEffect)

/-- The reserved commands `0x6` and `0x7` (R237). -/
def execCmdReserved6to7 (_low : BitVec 1) (s : State) : Host.Outcome State Fault Refusal :=
  .next (s.portWrite reservedEffect)

/-- The reserved commands `0x8` to `0xF` (R237). -/
def execCmdReserved8toF (_low : BitVec 3) (s : State) : Host.Outcome State Fault Refusal :=
  .next (s.portWrite reservedEffect)

end Sys2Proof.Machine
end

