-- ==== Sys2Proof/Machine/HostBus.lean ====
section
/-! DEFINITION. Bus reads, ignored writes and refused accesses (spec/45_host_interface.md R230, R240;
spec/60_exceptions.md R264). -/

namespace Sys2Proof.Machine

/-- `RD` (R230): a word read at offset `OFF`. The check `OFF[1:0] != 0` stands in the rule itself; a
decoded `RD` passes it. -/
def execRd (off : Offset) (s : State) : Host.Outcome State Fault Refusal :=
  if off.extractLsb' 0 2 = 0 then .next ((s.noteRead off).respond (.read (s.readWord off)))
  else .next (s.busError .read)

/-- `WR_IGNORED` (R240, R65, R67): the write is accepted and changes nothing. -/
def execWrIgnored (_off : Offset) (_data : Word) (s : State) : Host.Outcome State Fault Refusal :=
  .next (s.respond .written)

/-- `BUS_ERROR`, the row `OFF[0]=1`, which is also that of any access of a size other than 4 (R66,
R264). -/
def execBusErrorOff0 (a : BusAccess) (s : State) : Host.Outcome State Fault Refusal :=
  .next (s.busError a.kind)

/-- `BUS_ERROR`, the row `OFF[1]=1` (R66, R264). -/
def execBusErrorOff1 (a : BusAccess) (s : State) : Host.Outcome State Fault Refusal :=
  .next (s.busError a.kind)

end Sys2Proof.Machine
end

