-- ==== Sys2Proof/Machine/KeySchedule.lean ====
section
/-! DEFINITION. The stages of the key schedule (spec/42_key_schedule.md R160, R161). -/

namespace Sys2Proof.Machine

/-- The effect of stage `PC1` (R160). -/
def pc1Effect (s : State) : State :=
  let k56 : BitVec 56 := permute (s.slot .keyBin) s.tables.pc1
  { s.noteSlot .keyBin with
    trace := s.trace.putSlot .pc1Out k56
    c := first (h := 28) k56
    d := last (h := 28) k56 }

/-- The six values of a key-generation record (R43), and its subkey `K_i`. -/
structure KgRecord where
  cBefore : BitVec 28
  dBefore : BitVec 28
  shift : BitVec 5
  cAfter : BitVec 28
  dAfter : BitVec 28
  k : BitVec 48
  deriving DecidableEq, Repr

/-- What `KS(i+1)` computes from `C` and `D` (R161). -/
def kgRecord (T : Tables) (c d : BitVec 28) (i : Fin 16) : KgRecord :=
  let sh := T.shifts[i]
  let c1 := rotl28 c sh.toNat
  let d1 := rotl28 d sh.toNat
  ⟨c, d, sh, c1, d1, permute (c1 ++ d1) T.pc2⟩

/-- Writing the key-generation record `i` and the subkey `i` (R161). -/
def putKg (m : Memory) (i : Fin 16) (g : KgRecord) : Memory :=
  let m := Memory.putSlot m (.kg .cBefore i) g.cBefore
  let m := Memory.putSlot m (.kg .dBefore i) g.dBefore
  let m := Memory.putSlot m (.kg .shift i) g.shift
  let m := Memory.putSlot m (.kg .cAfter i) g.cAfter
  let m := Memory.putSlot m (.kg .dAfter i) g.dAfter
  let m := Memory.putSlot m (.kg .k i) g.k
  Memory.putSlot m (.k i) g.k

/-- The effect of stage `KS(i+1)` (R161). -/
def ksEffect (i : Fin 16) (s : State) : State :=
  let g := kgRecord s.tables s.c s.d i
  { s with trace := putKg s.trace i g, c := g.cAfter, d := g.dAfter }

/-- The stage after `KS(i+1)`: `KS(i+2)`, or `IP` after the sixteenth (R206). -/
def ksSucc (i : Fin 16) : BitVec 6 :=
  if h : i.val + 1 < 16 then stageKs ⟨i.val + 1, h⟩ else stageIp

/-- Stage `PC1` (R160). -/
def execPc1 (s : State) : Host.Outcome State Fault Refusal :=
  .next (s.engineStep pc1Effect (stageKs 0))

/-- Stage `KS(i+1)` (R161). -/
def execKs (i : Fin 16) (s : State) : Host.Outcome State Fault Refusal :=
  .next (s.engineStep (ksEffect i) (ksSucc i))

end Sys2Proof.Machine
end

