-- ==== Sys2Proof/Machine/Orchestrator.lean ====
section
/-! DEFINITION. The stages the orchestrator owns, and the reserved stage codes
(spec/44_orchestrator.md R200 to R204; spec/60_exceptions.md R266). -/

namespace Sys2Proof.Machine

/-- The effect of stage `LOAD` (R201). -/
def loadEffect (s : State) : State :=
  let m := Memory.putSlot s.trace .ptBin s.pt.buf
  let m := Memory.putSlot m .keyBin s.key.buf
  let m := Memory.putAscii m .ptHex (asciiHex16 s.pt.buf)
  let m := Memory.putAscii m .keyHex (asciiHex16 s.key.buf)
  { s with trace := m }

/-- The effect of stage `IP` (R203). -/
def ipEffect (s : State) : State :=
  let v : BitVec 64 := permute (s.slot .ptBin) s.tables.ip
  { s.noteSlot .ptBin with
    trace := s.trace.putSlot .ipOut v
    l := first (h := 32) v
    r := last (h := 32) v }

/-- The effect of stage `FP`: the pre-output block is `R || L`, with no extra swap (R204). -/
def fpEffect (s : State) : State :=
  let ct : BitVec 64 := permute (s.r ++ s.l) s.tables.fp
  { s with
    trace := (s.trace.putSlot .ctBin ct).putAscii .ctHex (asciiHex16 ct)
    valid := true
    busy := false }

/-- Stage `IDLE` (R200): the engine has no step. With `BUSY = 1` it is the unreachable case of R206,
a fault of the model (R266, log 11). -/
def execIdle (s : State) : Host.Outcome State Fault Refusal :=
  if s.busy then .fault .reservedStage else .next s

/-- Stage `LOAD` (R201). -/
def execLoad (s : State) : Host.Outcome State Fault Refusal :=
  .next (s.engineStep loadEffect stagePc1)

/-- Stage `IP` (R203). -/
def execIp (s : State) : Host.Outcome State Fault Refusal :=
  .next (s.engineStep ipEffect (stageRnd 0))

/-- Stage `FP` (R204). -/
def execFp (s : State) : Host.Outcome State Fault Refusal :=
  .next (s.engineStep fpEffect stageIdle)

/-- The reserved stage code `0x05` (R98, R266). -/
def execStageReserved05 (_s : State) : Host.Outcome State Fault Refusal := .fault .reservedStage

/-- The reserved stage codes `0x06` and `0x07` (R98, R266). -/
def execStageReserved06to07 (_low : BitVec 1) (_s : State) : Host.Outcome State Fault Refusal :=
  .fault .reservedStage

/-- The reserved stage codes `0x08` to `0x0F` (R98, R266). -/
def execStageReserved08to0F (_low : BitVec 3) (_s : State) : Host.Outcome State Fault Refusal :=
  .fault .reservedStage

/-- The reserved stage codes `0x30` to `0x3F` (R98, R266). -/
def execStageReserved30to3F (_low : BitVec 4) (_s : State) : Host.Outcome State Fault Refusal :=
  .fault .reservedStage

end Sys2Proof.Machine
end

