-- ==== Sys2Proof/Machine/Rounds.lean ====
section
/-! DEFINITION. The stages of the Feistel rounds (spec/43_round_function.md R187). -/

namespace Sys2Proof.Machine

/-- The eight values of a round record (R42). -/
structure RoundRecord where
  l : BitVec 32
  r : BitVec 32
  exp : BitVec 48
  k : BitVec 48
  xor : BitVec 48
  sbox : BitVec 32
  pbox : BitVec 32
  newr : BitVec 32
  deriving DecidableEq, Repr

/-- The record of a round: the halves before it, the subkey, and what `Round` gives (R187). -/
def roundRecord (T : Tables) (l r : BitVec 32) (k : BitVec 48) : RoundRecord :=
  let o := round T l r k
  ⟨l, r, o.exp, k, o.mix, o.sub, o.pbox, o.newr⟩

/-- Writing the round record `i` (R187). -/
def putRnd (m : Memory) (i : Fin 16) (g : RoundRecord) : Memory :=
  let m := Memory.putSlot m (.rnd .l i) g.l
  let m := Memory.putSlot m (.rnd .r i) g.r
  let m := Memory.putSlot m (.rnd .exp i) g.exp
  let m := Memory.putSlot m (.rnd .k i) g.k
  let m := Memory.putSlot m (.rnd .xor i) g.xor
  let m := Memory.putSlot m (.rnd .sbox i) g.sbox
  let m := Memory.putSlot m (.rnd .pbox i) g.pbox
  Memory.putSlot m (.rnd .newr i) g.newr

/-- The effect of stage `RND(i+1)`: `L` takes the old `R`, `R` takes the new right half (R187). -/
def rndEffect (i : Fin 16) (s : State) : State :=
  let g := roundRecord s.tables s.l s.r ((s.slot (.k i)).setWidth 48)
  { s.noteSlot (.k i) with trace := putRnd s.trace i g, l := s.r, r := g.newr }

/-- The stage after `RND(i+1)`: `RND(i+2)`, or `FP` after the sixteenth (R206). -/
def rndSucc (i : Fin 16) : BitVec 6 :=
  if h : i.val + 1 < 16 then stageRnd ⟨i.val + 1, h⟩ else stageFp

/-- Stage `RND(i+1)` (R187). -/
def execRnd (i : Fin 16) (s : State) : Host.Outcome State Fault Refusal :=
  .next (s.engineStep (rndEffect i) (rndSucc i))

end Sys2Proof.Machine
end

