-- ==== Sys2Proof/Machine/Dispatch.lean ====
section
/-! DEFINITION. The meaning of every instruction, one arm per constructor of `Instr`. -/

namespace Sys2Proof.Machine

def exec (i : Instr) (s : State) : Host.Outcome State Fault Refusal :=
  match i with
  -- HBUS
  | .rd off => Sys2Proof.Machine.execRd off s
  | .wrCtrl data => Sys2Proof.Machine.execWrCtrl data s
  | .wrPtChar data => Sys2Proof.Machine.execWrPtChar data s
  | .wrKeyChar data => Sys2Proof.Machine.execWrKeyChar data s
  | .wrIgnored off data => Sys2Proof.Machine.execWrIgnored off data s
  | .busErrorOff0 a => Sys2Proof.Machine.execBusErrorOff0 a s
  | .busErrorOff1 a => Sys2Proof.Machine.execBusErrorOff1 a s
  -- CMD
  | .nop => Sys2Proof.Machine.execNop s
  | .clrPt => Sys2Proof.Machine.execClrPt s
  | .clrKey => Sys2Proof.Machine.execClrKey s
  | .clrIn => Sys2Proof.Machine.execClrIn s
  | .start => Sys2Proof.Machine.execStart s
  | .ack => Sys2Proof.Machine.execAck s
  | .cmdReserved6to7 low => Sys2Proof.Machine.execCmdReserved6to7 low s
  | .cmdReserved8toF low => Sys2Proof.Machine.execCmdReserved8toF low s
  -- STAGE
  | .idle => Sys2Proof.Machine.execIdle s
  | .load => Sys2Proof.Machine.execLoad s
  | .pc1 => Sys2Proof.Machine.execPc1 s
  | .ip => Sys2Proof.Machine.execIp s
  | .fp => Sys2Proof.Machine.execFp s
  | .ks j => Sys2Proof.Machine.execKs j s
  | .rnd j => Sys2Proof.Machine.execRnd j s
  | .stageReserved05 => Sys2Proof.Machine.execStageReserved05 s
  | .stageReserved06to07 low => Sys2Proof.Machine.execStageReserved06to07 low s
  | .stageReserved08to0F low => Sys2Proof.Machine.execStageReserved08to0F low s
  | .stageReserved30to3F low => Sys2Proof.Machine.execStageReserved30to3F low s

end Sys2Proof.Machine
end

