-- ==== Sys2Proof/Machine/Step.lean ====
section
/-! DEFINITION. One step of the machine, and where the next instruction is placed. -/

namespace Sys2Proof.Machine

/-- One step: the host performs its next operation, or the engine executes the stage `STAGE` names,
or the reset input is asserted or released (R71, R206, R290). -/
def step (s : State) : Host.Outcome State Fault Refusal :=
  match s.turn with
  | .host => s.passTurn.hostTurn exec
  | .engine => s.passTurn.engineTurn exec
  | .assertReset => .next s.passTurn.assertReset
  | .releaseReset => .next s.passTurn.releaseReset

/-- `s` with the instruction of a word of spec/opcode_table.json placed where the next step fetches
it (log 16). A word that is no encoding changes nothing. -/
def State.withFetchWord (s : State) (nbits w : Nat) : State :=
  match tableCodeWord nbits w with
  | .ok cw => s.withCodeWord cw
  | .error _ => s

end Sys2Proof.Machine
end

