-- ==== Sys2Proof/Machine/Cipher.lean ====
section
/-! DEFINITION. The pure functions a run computes: `KeySchedule` and `EncryptBlock`
(spec/42_key_schedule.md R162; spec/44_orchestrator.md R205, R208), and which stage of the run writes
which trace field. -/

namespace Sys2Proof.Machine

/-- `C_n` and `D_n`, the key registers after `n` steps of the loop of `KeySchedule` (R162). -/
def keyRegs (T : Tables) (key : BitVec 64) : Nat → BitVec 28 × BitVec 28
  | 0 =>
    let k56 : BitVec 56 := permute key T.pc1
    (first (h := 28) k56, last (h := 28) k56)
  | n + 1 =>
    let cd := keyRegs T key n
    if h : n < 16 then
      let g := kgRecord T cd.1 cd.2 ⟨n, h⟩
      (g.cAfter, g.dAfter)
    else cd

/-- `Step_(i+1)` of `KeySchedule`; its last component is the subkey `K_(i+1)` (R162). -/
def keyStep (T : Tables) (key : BitVec 64) (i : Fin 16) : KgRecord :=
  let cd := keyRegs T key i.val
  kgRecord T cd.1 cd.2 i

/-- The result of `KeySchedule` (R162). -/
structure KeyTrace where
  ks : Vector (BitVec 48) 16
  steps : Vector KgRecord 16
  k56 : BitVec 56
  deriving DecidableEq, Repr

/-- `KeySchedule(key)` (R162). -/
def keySchedule (T : Tables) (key : BitVec 64) : KeyTrace where
  ks := Vector.ofFn fun i => (keyStep T key i).k
  steps := Vector.ofFn fun i => keyStep T key i
  k56 := permute key T.pc1

/-- `L_n` and `R_n`, the halves after `n` rounds of the loop of `EncryptBlock` (R205). -/
def halves (T : Tables) (p key : BitVec 64) : Nat → BitVec 32 × BitVec 32
  | 0 =>
    let ip : BitVec 64 := permute p T.ip
    (first (h := 32) ip, last (h := 32) ip)
  | n + 1 =>
    let lr := halves T p key n
    if h : n < 16 then (lr.2, (round T lr.1 lr.2 (keyStep T key ⟨n, h⟩).k).newr) else lr

/-- `Rec_(i+1)` of `EncryptBlock` (R205). -/
def roundStep (T : Tables) (p key : BitVec 64) (i : Fin 16) : RoundRecord :=
  let lr := halves T p key i.val
  roundRecord T lr.1 lr.2 (keyStep T key i).k

/-- The ciphertext of a block: `permute(R_16 || L_16, FP)` (R204, R205). -/
def cipherText (T : Tables) (p key : BitVec 64) : BitVec 64 :=
  let lr := halves T p key 16
  permute (lr.2 ++ lr.1) T.fp

/-- The CipherTrace, the tuple of R205: the two strings, in the form spec/90_conflicts.md C6 gives them
in a trace, the two blocks, the output of each stage, the records. `keys` holds the components `Ks`,
`Steps` and `k56`. -/
structure CipherTrace where
  ptHex : List Char8
  keyHex : List Char8
  p : BitVec 64
  key : BitVec 64
  ip : BitVec 64
  rounds : Vector RoundRecord 16
  keys : KeyTrace
  ct : BitVec 64
  deriving DecidableEq, Repr

/-- Steps 3 to 7 of `EncryptBlock`, on the two 64-bit blocks (R205). The strings are those `LOAD` writes
for the blocks, `AsciiHex16` of each (R201). -/
def encrypt (T : Tables) (p key : BitVec 64) : CipherTrace where
  ptHex := binaryToHex (n := 16) p
  keyHex := binaryToHex (n := 16) key
  p := p
  key := key
  ip := permute p T.ip
  rounds := Vector.ofFn fun i => roundStep T p key i
  keys := keySchedule T key
  ct := cipherText T p key

/-- `EncryptBlock(ptHex, keyHex)`, defined when every character of both strings is a hex digit, else
`MalformedInput` (R205). -/
def encryptBlock (T : Tables) (ptHex keyHex : List Char8) : Except HwError CipherTrace :=
  if ptHex.all isHex && keyHex.all isHex then
    .ok { encrypt T (hexBlock ptHex) (hexBlock keyHex) with
      ptHex := normalText ptHex
      keyHex := normalText keyHex }
  else .error .malformedInput

/-! ### The trace memory a CipherTrace fills -/

/-- The words a CipherTrace puts in a trace field (R62, R64, R208). -/
def CipherTrace.words (t : CipherTrace) : TField → List Word
  | .ptHex => asciiWords (packChars t.ptHex)
  | .keyHex => asciiWords (packChars t.keyHex)
  | .ptBin => slotWords t.p
  | .keyBin => slotWords t.key
  | .pc1Out => slotWords (t.keys.k56.setWidth 64)
  | .ipOut => slotWords t.ip
  | .ctBin => slotWords t.ct
  | .ctHex => asciiWords (asciiHex16 t.ct)
  | .rnd f i =>
    let g := t.rounds[i]
    slotWords <|
      match f with
      | .l => g.l.setWidth 64
      | .r => g.r.setWidth 64
      | .exp => g.exp.setWidth 64
      | .k => g.k.setWidth 64
      | .xor => g.xor.setWidth 64
      | .sbox => g.sbox.setWidth 64
      | .pbox => g.pbox.setWidth 64
      | .newr => g.newr.setWidth 64
  | .kg f i =>
    let g := t.keys.steps[i]
    slotWords <|
      match f with
      | .cBefore => g.cBefore.setWidth 64
      | .dBefore => g.dBefore.setWidth 64
      | .shift => g.shift.setWidth 64
      | .cAfter => g.cAfter.setWidth 64
      | .dAfter => g.dAfter.setWidth 64
      | .k => g.k.setWidth 64
  | .k i => slotWords (t.keys.ks[i].setWidth 64)

/-- The words a memory holds from a byte offset on; `none` where none was written. -/
def Memory.getWords (m : Memory) (a : Nat) : Nat → List (Option Word)
  | 0 => []
  | n + 1 => Memory.get m a :: Memory.getWords m (a + 4) n

/-- The memory holds a CipherTrace's words in a field. -/
def Memory.holds (m : Memory) (t : CipherTrace) (f : TField) : Prop :=
  Memory.getWords m f.offset f.words = (t.words f).map some

/-! ### The order of a run (R28, R206) -/

/-- The place of a stage in the sequence `LOAD, PC1, KS(1..16), IP, RND(1..16), FP`. -/
def stagePlace : Instr → Option Nat
  | .load => some 0
  | .pc1 => some 1
  | .ks i => some (2 + i.val)
  | .ip => some 18
  | .rnd i => some (19 + i.val)
  | .fp => some 35
  | _ => none

/-- How many stages of the run in progress are done, from the stage that comes next; 36 where
`STAGE` names none. -/
def State.stagesDone (s : State) : Nat := (stagePlace (decodeStage s.stage)).getD 36

/-- The place of the stage that writes a trace field (R41 to R44, R207). -/
def TField.writtenAt : TField → Nat
  | .ptHex | .keyHex | .ptBin | .keyBin => 0
  | .pc1Out => 1
  | .kg _ i => 2 + i.val
  | .k i => 2 + i.val
  | .ipOut => 18
  | .rnd _ i => 19 + i.val
  | .ctBin | .ctHex => 35

end Sys2Proof.Machine
end

