-- ==== Sys2Proof/Safety.lean ====
section
/-! DEFINITION. What counts as a safe state and a safe run: the invariants of spec/10_state.md R46,
the agreement of the trace memory with `EncryptBlock` (spec/44_orchestrator.md R207, R208), and the
states a machine can reach from reset. -/

namespace Sys2Proof.Machine

/-- The stage codes `STAGE` may hold (R27). -/
def legalStage (c : BitVec 6) : Bool := c == stageIdle || (stagePlace (decodeStage c)).isSome

/-- R46 (d), (e) for one input field: the count is at most 16, and the digits past it are 0. -/
def InputField.Ok (f : InputField) : Prop :=
  f.cnt.toNat ≤ 16 ∧ ∀ k, f.cnt.toNat ≤ k → k < 16 → nibble f.buf k = 0

/-- The invariants of R46, with the legal codes of R27, the `FATAL` of R36 and the canonical form of
the trace memory, which lists trace words only. -/
structure State.Inv (s : State) : Prop where
  busy_iff_stage : s.busy = true ↔ s.stage ≠ stageIdle
  stage_legal : legalStage s.stage = true
  fatal_eq : s.fatal = !s.tables.wellFormed
  fatal_quiet : s.fatal = true → s.busy = false ∧ s.valid = false
  busy_not_valid : s.busy = true → s.valid = false
  pt_ok : s.pt.Ok
  key_ok : s.key.Ok
  trace_wf : Memory.wf s.trace = true
  trace_offsets : ∀ a w, (a, w) ∈ s.trace → isTraceOffset a = true

/-- The CipherTrace of the run in progress: the engine's tables on the two buffers, which no host
access can change while `BUSY = 1` (R262). -/
def State.runTrace (s : State) : CipherTrace := encrypt s.tables s.pt.buf s.key.buf

/-- Every stage that is done has left its fields and working registers as `EncryptBlock` gives them
(R207, R208); a trace that `VALID` declares complete is that of some two blocks (R32). -/
structure State.TraceOk (s : State) : Prop where
  done : s.busy = true → ∀ f : TField, f.writtenAt < s.stagesDone → Memory.holds s.trace s.runTrace f
  keyRegs : s.busy = true → 2 ≤ s.stagesDone → s.stagesDone ≤ 18 →
    (s.c, s.d) = Machine.keyRegs s.tables s.key.buf (s.stagesDone - 2)
  halves : s.busy = true → 19 ≤ s.stagesDone → s.stagesDone ≤ 35 →
    (s.l, s.r) = Machine.halves s.tables s.pt.buf s.key.buf (s.stagesDone - 19)
  valid : s.valid = true → ∃ p key : BitVec 64, ∀ f : TField,
    Memory.holds s.trace (encrypt s.tables p key) f

/-- The states a machine built with any table set, driven by any host program under any
interleaving, reaches from reset. -/
inductive Reachable : State → Prop where
  | reset (T : Tables) (program : List HostOp) (sched : List Turn) :
      Reachable { State.resetWith T with program := program, sched := sched }
  | step {s t : State} : Reachable s → Machine.step s = .next t → Reachable t

/-- How many engine steps the run in progress still takes (R210). -/
def State.stepsLeft (s : State) : Nat := if s.busy then 36 - s.stagesDone else 0

end Sys2Proof.Machine
end

