-- ==== Sys2Proof/Certificates/Slice0/Obligations.lean ====
section
/-! DEFINITION. The statements for the provers, each with the rule of spec/ it formalises. In every
statement `inReset`, `draws`, `response`, `program` and `sched` are the model's own fields (logs 1, 3,
4, 8, 10). -/

open Sys2Proof Sys2Proof.Machine

namespace Sys2Proof.Statements

/-- A slot field holds `zext_64(v)`: the high word at its offset, the low word after it (R62). -/
def SlotHolds {w : Nat} (m : Memory) (f : TField) (v : BitVec w) : Prop :=
  Memory.get m f.offset = some ((v.setWidth 64).extractLsb' 32 32) ∧
    Memory.get m (f.offset + 4) = some ((v.setWidth 64).extractLsb' 0 32)

/-- An ASCII field holds the sixteen uppercase digits of `v`: word `4j` holds characters `4j` to
`4j+3`, character `4j` in bits 31:24 (R64). -/
def AsciiHolds (m : Memory) (f : TField) (v : BitVec 64) : Prop :=
  ∀ j < 4, Memory.get m (f.offset + 4 * j) = some
    (asciiHexDigit (v.extractLsb' (60 - 4 * (4 * j)) 4) ++
      asciiHexDigit (v.extractLsb' (60 - 4 * (4 * j + 1)) 4) ++
      asciiHexDigit (v.extractLsb' (60 - 4 * (4 * j + 2)) 4) ++
      asciiHexDigit (v.extractLsb' (60 - 4 * (4 * j + 3)) 4))

/-- Every word outside these fields reads as before. -/
def SameOutside (m m' : Memory) (fs : List TField) : Prop :=
  ∀ a, (∀ f ∈ fs, ∀ j < f.words, a ≠ f.offset + 4 * j) → Memory.get m' a = Memory.get m a

/-- Both words of a slot field have been written. -/
def SlotWritten (m : Memory) (f : TField) : Prop :=
  (Memory.get m f.offset).isSome = true ∧ (Memory.get m (f.offset + 4)).isSome = true

/-- The stage codes of a run in order, `LOAD, PC1, KS(1..16), IP, RND(1..16), FP`, and the `IDLE`
that follows (R28, R97). -/
def runSequence : List (BitVec 6) :=
  [0x01, 0x02,
   0x10, 0x11, 0x12, 0x13, 0x14, 0x15, 0x16, 0x17, 0x18, 0x19, 0x1A, 0x1B, 0x1C, 0x1D, 0x1E, 0x1F,
   0x03,
   0x20, 0x21, 0x22, 0x23, 0x24, 0x25, 0x26, 0x27, 0x28, 0x29, 0x2A, 0x2B, 0x2C, 0x2D, 0x2E, 0x2F,
   0x04, 0x00]

/-- The command each code of `CTRL[3:0]` names (R93). -/
def commandNamed (code : Nat) : Instr :=
  match code with
  | 0 => .nop
  | 1 => .clrPt
  | 2 => .clrKey
  | 3 => .clrIn
  | 4 => .start
  | 5 => .ack
  | 6 => .cmdReserved6to7 0
  | 7 => .cmdReserved6to7 1
  | n => .cmdReserved8toF (BitVec.ofNat 3 n)

end Sys2Proof.Statements

open Sys2Proof.Statements

/-! ### Encodings -/

/-- R91, R93, R97: no operand bit of any encoding is dropped. -/
def Obligations.DecodeOfEncodeIsTheInstruction : Prop :=
  ∀ i : Instr, i.wellFormed = true → decode (encode i) = i

/-- R91, R93, R97, R98: every transaction, command word and stage code decodes to a well-formed
instruction, and encoding that instruction gives it back; of a command word, its four low bits. -/
def Obligations.EncodeOfDecodeIsTheCode : Prop :=
  (∀ a : BusAccess, (decodeHbus a).wellFormed = true ∧ encode (decodeHbus a) = .hbus a) ∧
  (∀ w : Word, (decodeCmd w).wellFormed = true ∧
    encode (decodeCmd w) = .cmd ((w.extractLsb' 0 4).setWidth 32)) ∧
  (∀ c : BitVec 6, (decodeStage c).wellFormed = true ∧ encode (decodeStage c) = .stage c)

/-- Words written out from R91, R93 and R97, one for each family, decode to their instructions. -/
def Obligations.WrittenOutWordsDecode : Prop :=
  decodeTableWord 16 0b0000101000000 = some (.rd 0x140) ∧
  decodeTableWord 16 0b1000000000100 = some (.wrCtrl 0) ∧
  decodeTableWord 16 0b1000000010000 = some (.wrPtChar 0) ∧
  decodeTableWord 16 0b1000000010100 = some (.wrKeyChar 0) ∧
  decodeTableWord 16 0b1000101000000 = some (.wrIgnored 0x140 0) ∧
  decodeTableWord 16 0b0000000000010 = some (.busErrorOff1 ⟨0x002, 4, .read⟩) ∧
  decodeTableWord 32 0b0100 = some .start ∧
  decodeTableWord 32 0b1111 = some (.cmdReserved8toF 7) ∧
  decodeTableWord 8 0b010101 = some (.ks 5) ∧
  decodeTableWord 8 0b101111 = some (.rnd 15) ∧
  decodeTableWord 8 0b000100 = some .fp ∧
  decodeTableWord 8 0b110000 = some (.stageReserved30to3F 0)

/-! ### A step runs the decoded instruction -/

/-- R71, R99, R206, R290: what one step is for each that can move. The interleaving and the host program
are the model's own fields (logs 1, 2, 3, 10). -/
def Obligations.StepRunsTheDecodedInstruction : Prop :=
  (∀ (s : State) (a : BusAccess) (ops : List HostOp), s.inReset = false → s.turn = .host →
    s.program = .access a :: ops →
    step s = exec (decodeHbus a) { s with program := ops, sched := s.sched.tail }) ∧
  (∀ (s t : State) (off : Offset) (mask val : Word) (ops : List HostOp), s.inReset = false →
    s.turn = .host → s.program = .poll off mask val :: ops →
    exec (decodeHbus ⟨off, 4, .read⟩) { s with sched := s.sched.tail } = .next t →
    step s = .next (if t.response.word &&& mask = val then { t with program := ops } else t)) ∧
  (∀ s : State, s.turn = .host → s.program = [] → step s = .next { s with sched := s.sched.tail }) ∧
  (∀ s : State, s.inReset = false → s.turn = .engine → s.busy = true →
    step s = exec (decodeStage s.stage) { s with sched := s.sched.tail }) ∧
  (∀ s : State, s.turn = .engine → s.busy = false →
    step s = .next { s with sched := s.sched.tail }) ∧
  (∀ s : State, s.inReset = true → s.turn = .host ∨ s.turn = .engine →
    step s = .next { s with sched := s.sched.tail }) ∧
  (∀ s : State, s.turn = .assertReset →
    step s = .next { s with inReset := true, sched := s.sched.tail }) ∧
  (∀ s : State, s.turn = .releaseReset →
    step s = .next (if s.inReset = true then
      { State.resetWith s.tables with
        draws := s.draws, program := s.program, sched := s.sched.tail }
    else { s with sched := s.sched.tail }))

/-- An instruction placed by `withFetchWord` is the one the very next step runs: a transaction or a
command in the state itself, a stage with `STAGE` at its code and `BUSY = 1` unless it is `IDLE`; the
reset input is released (log 16). -/
def Obligations.PlacedInstructionRunsNext : Prop :=
  (∀ (s : State) (w : Nat) (i : Instr), decodeTableWord 16 w = some i →
    step (s.withFetchWord 16 w) = exec i { s with inReset := false }) ∧
  (∀ (s : State) (w : Nat) (i : Instr), decodeTableWord 32 w = some i →
    step (s.withFetchWord 32 w) = exec i { s with inReset := false }) ∧
  (∀ (s : State) (w : Nat) (i : Instr), decodeTableWord 8 w = some i →
    step (s.withFetchWord 8 w) =
      exec i { s with inReset := false, stage := BitVec.ofNat 6 w, busy := decide (w ≠ 0) })

/-! ### Reset -/

/-- R292: at the end of reset `FATAL <- not TablesWellFormed(TABLES)`; `TABLES` is fixed, so every
reset of one engine gives the same `FATAL`. -/
def Obligations.ResetEvaluatesFatal : Prop :=
  (∀ T : Tables, (State.resetWith T).fatal = !T.wellFormed) ∧
  (∀ s : State, s.inReset = true → s.turn = .releaseReset → ∃ t, step s = .next t ∧
    t.fatal = (!s.tables.wellFormed) ∧ t.tables = s.tables)

/-- The reset values of R24 to R36, in `STATUS` and `INSTAT` too (R30, R38), with no trace word
written (R291). It says nothing of `C`, `D`, `L`, `R`, which the spec leaves open (log 7). -/
def Sys2Proof.Statements.HasResetValues (s : State) : Prop :=
  s.pt = ⟨0, 0, false, false⟩ ∧ s.key = ⟨0, 0, false, false⟩ ∧ s.stage = 0x00 ∧
  s.busy = false ∧ s.valid = false ∧ s.errMalformed = false ∧ s.errBusy = false ∧
  s.errCmd = false ∧ s.fatal = (!s.tables.wellFormed) ∧ (∀ a, Memory.get s.trace a = none) ∧
  s.statusWord = (if s.tables.wellFormed then 0x00000000 else 0x00000020) ∧
  s.instatWord = 0x00000000

/-- R290: while reset is asserted no bus access is accepted and the engine takes no step; the host's
operation waits (log 10). When it ends, whatever the state before it, every element has its reset
value. -/
def Obligations.ResetLeavesTheGivenValues : Prop :=
  (∀ T : Tables, HasResetValues (State.resetWith T)) ∧
  (∀ s : State, s.inReset = true → s.turn = .host ∨ s.turn = .engine →
    step s = .next { s with sched := s.sched.tail }) ∧
  (∀ s : State, s.turn = .assertReset →
    step s = .next { s with inReset := true, sched := s.sched.tail }) ∧
  (∀ s : State, s.inReset = true → s.turn = .releaseReset → ∃ t, step s = .next t ∧
    t.inReset = false ∧ t.tables = s.tables ∧ HasResetValues t)

/-! ### Commands -/

/-- R231: `NOP` has no effect, even while `BUSY = 1`. -/
def Obligations.NopHasNoEffect : Prop :=
  ∀ s : State, exec .nop s = .next { s with response := .written }

/-- R232: `CLR_PT` clears the plaintext field when idle, and only sets `ERR_BUSY` when busy. -/
def Obligations.ClearPlaintextCommand : Prop :=
  ∀ s : State, s.fatal = false →
    (s.busy = true → exec .clrPt s = .next { s with errBusy := true, response := .written }) ∧
    (s.busy = false →
      exec .clrPt s = .next { s with pt := ⟨0, 0, false, false⟩, response := .written })

/-- R233: `CLR_KEY` does the same for the key field. -/
def Obligations.ClearKeyCommand : Prop :=
  ∀ s : State, s.fatal = false →
    (s.busy = true → exec .clrKey s = .next { s with errBusy := true, response := .written }) ∧
    (s.busy = false →
      exec .clrKey s = .next { s with key := ⟨0, 0, false, false⟩, response := .written })

/-- R234: `CLR_IN` clears both fields in one write. -/
def Obligations.ClearInputsCommand : Prop :=
  ∀ s : State, s.fatal = false →
    (s.busy = true → exec .clrIn s = .next { s with errBusy := true, response := .written }) ∧
    (s.busy = false →
      exec .clrIn s = .next { s with
        pt := ⟨0, 0, false, false⟩, key := ⟨0, 0, false, false⟩, response := .written })

/-- R235: `START` is refused while busy; raises `MalformedInput` and clears `VALID` on a malformed
input, with no run; else starts a run at `LOAD`. -/
def Obligations.StartCommand : Prop :=
  ∀ s : State, s.fatal = false →
    (s.busy = true → exec .start s = .next { s with errBusy := true, response := .written }) ∧
    (s.busy = false → s.pt.mal = true ∨ s.key.mal = true →
      exec .start s = .next { s with errMalformed := true, valid := false, response := .written }) ∧
    (s.busy = false → s.pt.mal = false → s.key.mal = false →
      exec .start s = .next { s with
        errMalformed := false, valid := false, busy := true, stage := 0x01, response := .written })

/-- R236: `ACK` clears the three sticky error bits and nothing else, busy or not. -/
def Obligations.AckCommand : Prop :=
  ∀ s : State, s.fatal = false →
    exec .ack s = .next { s with
      errMalformed := false, errBusy := false, errCmd := false, response := .written }

/-- R237: a reserved command sets `ERR_CMD` and nothing else, busy or not. -/
def Obligations.ReservedCommandsSetErrCmd : Prop :=
  ∀ s : State, s.fatal = false →
    (∀ b, exec (.cmdReserved6to7 b) s = .next { s with errCmd := true, response := .written }) ∧
    (∀ b, exec (.cmdReserved8toF b) s = .next { s with errCmd := true, response := .written })

/-- R242: a write to `CTRL` has no effect while `FATAL = 1`; otherwise it issues the command named by
`data[3:0]`, and bits 31:4 are ignored. -/
def Obligations.ControlWriteIssuesItsCommand : Prop :=
  ∀ (data : Word) (s : State),
    (s.fatal = true → exec (.wrCtrl data) s = .next { s with response := .written }) ∧
    (∃ t, exec (.wrCtrl data) s = .next t ∧ exec (commandNamed (data.toNat % 16)) s = .next t) ∧
    (∀ data' : Word, data'.extractLsb' 0 4 = data.extractLsb' 0 4 →
      exec (.wrCtrl data') s = exec (.wrCtrl data) s)

/-- R239: while `FATAL = 1` every write to `CTRL` or a character port is accepted and has no effect;
`STATUS` can still be read and shows `FATAL`; only reset can leave the condition, and only with
well-formed tables. -/
def Obligations.FatalEngineTakesNoCommand : Prop :=
  (∀ (s : State) (data : Word), s.fatal = true →
    exec (.wrCtrl data) s = .next { s with response := .written } ∧
    exec (.wrPtChar data) s = .next { s with response := .written } ∧
    exec (.wrKeyChar data) s = .next { s with response := .written }) ∧
  (∀ s : State, s.fatal = true → ∃ w : Word,
    exec (.rd 0x008) s = .next { s with response := .read w } ∧ w.getLsbD 5 = true) ∧
  (∀ s t : State, s.fatal = true → step s = .next t → t.fatal = false →
    s.turn = .releaseReset ∧ s.inReset = true ∧ s.tables.wellFormed = true)

/-! ### Character input -/

/-- What `CharIn(F, data)` leaves in the field `F` of an idle engine (R238): the digit `HexVal(ch)`
in place `CNT_F`, the flag `TRUNC_F`, or the flag `MAL_F`. -/
def Sys2Proof.Statements.CharTaken (f f' : InputField) (data : Word) : Prop :=
  (∀ v, hexVal? (data.extractLsb' 0 8) = some v → f.cnt.toNat < 16 →
    f'.cnt.toNat = f.cnt.toNat + 1 ∧ nibble f'.buf f.cnt.toNat = v ∧
    (∀ k, k < 16 → k ≠ f.cnt.toNat → nibble f'.buf k = nibble f.buf k) ∧
    f'.trunc = f.trunc ∧ f'.mal = f.mal) ∧
  (∀ v, hexVal? (data.extractLsb' 0 8) = some v → 16 ≤ f.cnt.toNat → f' = { f with trunc := true }) ∧
  (hexVal? (data.extractLsb' 0 8) = none → f' = { f with mal := true })

/-- R238: `WR_PT_CHAR` appends one character to the plaintext string. -/
def Obligations.PlaintextCharacterWrite : Prop :=
  ∀ (data : Word) (s : State),
    (s.fatal = true → exec (.wrPtChar data) s = .next { s with response := .written }) ∧
    (s.fatal = false → s.busy = true →
      exec (.wrPtChar data) s = .next { s with errBusy := true, response := .written }) ∧
    (s.fatal = false → s.busy = false → ∃ f', CharTaken s.pt f' data ∧
      exec (.wrPtChar data) s = .next { s with pt := f', response := .written })

/-- R241: `WR_KEY_CHAR` appends one character to the key string. -/
def Obligations.KeyCharacterWrite : Prop :=
  ∀ (data : Word) (s : State),
    (s.fatal = true → exec (.wrKeyChar data) s = .next { s with response := .written }) ∧
    (s.fatal = false → s.busy = true →
      exec (.wrKeyChar data) s = .next { s with errBusy := true, response := .written }) ∧
    (s.fatal = false → s.busy = false → ∃ f', CharTaken s.key f' data ∧
      exec (.wrKeyChar data) s = .next { s with key := f', response := .written })

/-- R24, R25, R26, R29, R96, R125: the characters of any string, written one after the other into a
cleared field, leave `hexToBinary(Normalize(.))` of its hex digits, their count up to 16, whether
there were more, and whether any other character was among them. -/
def Obligations.StreamedStringIsNormalised : Prop :=
  ∀ str : List Char8,
    let f := str.foldl InputField.charIn .empty
    f.buf = hexBlock (str.filter isHex) ∧
    f.cnt.toNat = min 16 (str.filter isHex).length ∧
    f.trunc = decide (16 < (str.filter isHex).length) ∧
    f.mal = str.any (fun ch => !isHex ch)

/-! ### Bus reads, ignored writes, refused accesses -/

/-- R230: a word read at an aligned offset returns the register, the word of the trace field, or 0,
and changes nothing of the engine; at any other offset it is a bus error. Of an unwritten trace word,
whose value is unspecified (R291), it says only that the read is answered (`draws`, log 8). -/
def Obligations.WordReadReturnsTheRegister : Prop :=
  (∀ (off : Offset) (s : State), off.toNat % 4 = 0 → ∃ (w : Word) (n : Nat),
    exec (.rd off) s = .next { s with response := .read w, draws := n } ∧
    (off.toNat = 0x000 → w = 0x44455331) ∧
    (off.toNat = 0x008 → w = s.statusWord) ∧
    (off.toNat = 0x00C → w = s.instatWord) ∧
    (∀ (f : TField) (j : Nat) (v : Word), j < f.words → off.toNat = f.offset + 4 * j →
      Memory.get s.trace off.toNat = some v → w = v) ∧
    (off.toNat ≠ 0x000 → off.toNat ≠ 0x008 → off.toNat ≠ 0x00C →
      (∀ (f : TField) (j : Nat), j < f.words → off.toNat ≠ f.offset + 4 * j) → w = 0) ∧
    ((∀ (f : TField) (j : Nat), j < f.words → off.toNat = f.offset + 4 * j →
      (Memory.get s.trace off.toNat).isSome = true) → n = s.draws)) ∧
  (∀ (off : Offset) (s : State), off.toNat % 4 ≠ 0 →
    exec (.rd off) s = .next { s with response := .readError 0 })

/-- R68: a read may be repeated and returns the same value. (A trace word no run has written is the
exception R291 makes.) -/
def Obligations.RepeatedReadReturnsTheSame : Prop :=
  ∀ (off : Offset) (s t : State),
    (isTraceOffset off.toNat = true → (Memory.get s.trace off.toNat).isSome = true) →
    exec (.rd off) s = .next t → exec (.rd off) t = .next t

/-- R30, R38: the fields of `STATUS` and `INSTAT`, bit by bit. -/
def Obligations.StatusAndInstatLayout : Prop :=
  ∀ s : State,
    (s.statusWord.getLsbD 0 = s.busy ∧ s.statusWord.getLsbD 1 = s.valid ∧
     s.statusWord.getLsbD 2 = s.errMalformed ∧ s.statusWord.getLsbD 3 = s.errBusy ∧
     s.statusWord.getLsbD 4 = s.errCmd ∧ s.statusWord.getLsbD 5 = s.fatal ∧
     s.statusWord.extractLsb' 6 2 = 0 ∧ s.statusWord.extractLsb' 8 6 = s.stage ∧
     s.statusWord.extractLsb' 14 18 = 0) ∧
    (s.instatWord.extractLsb' 0 5 = s.pt.cnt ∧ s.instatWord.getLsbD 5 = s.pt.trunc ∧
     s.instatWord.getLsbD 6 = s.pt.mal ∧ s.instatWord.getLsbD 7 = false ∧
     s.instatWord.extractLsb' 8 5 = s.key.cnt ∧ s.instatWord.getLsbD 13 = s.key.trunc ∧
     s.instatWord.getLsbD 14 = s.key.mal ∧ s.instatWord.extractLsb' 15 17 = 0)

/-- R240: any other aligned write is accepted and ignored. -/
def Obligations.OtherWritesAreIgnored : Prop :=
  (∀ (off : Offset) (data : Word) (s : State),
    exec (.wrIgnored off data) s = .next { s with response := .written }) ∧
  (∀ (off : Offset) (data : Word), off.toNat % 4 = 0 → off.toNat ≠ 0x004 → off.toNat ≠ 0x010 →
    off.toNat ≠ 0x014 → decodeHbus ⟨off, 4, .write data⟩ = .wrIgnored off data)

/-- R66: any access of a size other than 4, or at an offset that is not a multiple of 4, is
refused with the bus error response; it changes no state, and a read returns 0. -/
def Obligations.OtherAccessesAreRefused : Prop :=
  (∀ (a : BusAccess) (s : State),
    let answer : Response := match a.kind with | .read => .readError 0 | .write _ => .writeError
    exec (.busErrorOff0 a) s = .next { s with response := answer } ∧
    exec (.busErrorOff1 a) s = .next { s with response := answer }) ∧
  (∀ a : BusAccess, a.size ≠ 4 ∨ a.off.toNat % 4 ≠ 0 →
    decodeHbus a = .busErrorOff0 a ∨ decodeHbus a = .busErrorOff1 a)

/-- R243: the checks of one host write run in the order bus error, `FATAL`, decode, `BUSY`, malformed.
A misaligned or short `START` changes nothing; a reserved command while busy sets `ERR_CMD` and not
`ERR_BUSY`; a `START` while busy with malformed input, or a character outside the alphabet while busy,
sets `ERR_BUSY` and nothing else. -/
def Obligations.WriteChecksRunInOrder : Prop :=
  ∀ (a : BusAccess) (data : Word) (s : State), a.kind = .write data →
    (a.size ≠ 4 ∨ a.off.toNat % 4 ≠ 0 →
      exec (decodeHbus a) s = .next { s with response := .writeError }) ∧
    (a.size = 4 → a.off.toNat % 4 = 0 → s.fatal = true →
      exec (decodeHbus a) s = .next { s with response := .written }) ∧
    (a.size = 4 → a.off.toNat % 4 = 0 → a.off.toNat ≠ 0x004 → a.off.toNat ≠ 0x010 →
      a.off.toNat ≠ 0x014 → exec (decodeHbus a) s = .next { s with response := .written }) ∧
    (a.size = 4 → a.off.toNat = 0x004 → s.fatal = false → data.toNat % 16 = 0 →
      exec (decodeHbus a) s = .next { s with response := .written }) ∧
    (a.size = 4 → a.off.toNat = 0x004 → s.fatal = false → data.toNat % 16 = 5 →
      exec (decodeHbus a) s = .next { s with
        errMalformed := false, errBusy := false, errCmd := false, response := .written }) ∧
    (a.size = 4 → a.off.toNat = 0x004 → s.fatal = false → 6 ≤ data.toNat % 16 →
      exec (decodeHbus a) s = .next { s with errCmd := true, response := .written }) ∧
    (a.size = 4 → a.off.toNat = 0x004 → s.fatal = false → 1 ≤ data.toNat % 16 →
      data.toNat % 16 ≤ 4 → s.busy = true →
      exec (decodeHbus a) s = .next { s with errBusy := true, response := .written }) ∧
    (a.size = 4 → a.off.toNat = 0x010 ∨ a.off.toNat = 0x014 → s.fatal = false → s.busy = true →
      exec (decodeHbus a) s = .next { s with errBusy := true, response := .written }) ∧
    (a.size = 4 → a.off.toNat = 0x004 → s.fatal = false → data.toNat % 16 = 4 → s.busy = false →
      s.pt.mal = true ∨ s.key.mal = true →
      exec (decodeHbus a) s = .next { s with
        errMalformed := true, valid := false, response := .written })

/-! ### The layout of the trace memory -/

/-- R61, R63: the trace words of the window are exactly the words of the trace fields, and no two
fields share a word. -/
def Obligations.TraceFieldsTileTheirRegions : Prop :=
  (∀ n : Nat, isTraceOffset n = true ↔
    ∃ (f : TField) (j : Nat), j < f.words ∧ n = f.offset + 4 * j) ∧
  (∀ (f g : TField) (j k : Nat), j < f.words → k < g.words →
    f.offset + 4 * j = g.offset + 4 * k → f = g ∧ j = k)

/-- R62: a value written to a slot field reads back zero-extended, the high word first. -/
def Obligations.SlotReadsBackZeroExtended : Prop :=
  ∀ (w : Nat) (s : State) (f : TField) (v : BitVec w), f.words = 2 → w ≤ 64 →
    let s' := { s with trace := Memory.putSlot s.trace f v }
    s'.slot f = v.setWidth 64 ∧
    s'.readWord (BitVec.ofNat 12 f.offset) = (v.setWidth 64).extractLsb' 32 32 ∧
    s'.readWord (BitVec.ofNat 12 (f.offset + 4)) = (v.setWidth 64).extractLsb' 0 32

/-! ### Stages -/

/-- R201: stage `LOAD`. -/
def Obligations.LoadStage : Prop :=
  ∀ s : State, s.busy = true → ∃ t, exec .load s = .next t ∧
    t = { s with trace := t.trace, stage := 0x02 } ∧
    SlotHolds t.trace .ptBin s.pt.buf ∧ SlotHolds t.trace .keyBin s.key.buf ∧
    AsciiHolds t.trace .ptHex s.pt.buf ∧ AsciiHolds t.trace .keyHex s.key.buf ∧
    SameOutside s.trace t.trace [.ptBin, .keyBin, .ptHex, .keyHex]

/-- R160: stage `PC1`. -/
def Obligations.Pc1Stage : Prop :=
  ∀ s : State, s.busy = true →
    let k56 : BitVec 56 := permute (s.slot .keyBin) s.tables.pc1
    ∃ t, exec .pc1 s = .next t ∧
      t = { s with
        c := k56.extractLsb' 28 28, d := k56.extractLsb' 0 28, trace := t.trace, stage := 0x10,
        draws := t.draws } ∧
      (SlotWritten s.trace .keyBin → t.draws = s.draws) ∧
      SlotHolds t.trace .pc1Out k56 ∧ SameOutside s.trace t.trace [.pc1Out]

/-- R161: stage `KS(i+1)`. -/
def Obligations.KsStage : Prop :=
  ∀ (i : Fin 16) (s : State), s.busy = true →
    let sh := s.tables.shifts[i]
    let c1 := rotl28 s.c sh.toNat
    let d1 := rotl28 s.d sh.toNat
    let k : BitVec 48 := permute (c1 ++ d1) s.tables.pc2
    ∃ t, exec (.ks i) s = .next t ∧
      t = { s with
        c := c1, d := d1, trace := t.trace,
        stage := if i.val < 15 then BitVec.ofNat 6 (0x10 + i.val + 1) else 0x03 } ∧
      SlotHolds t.trace (.kg .cBefore i) s.c ∧ SlotHolds t.trace (.kg .dBefore i) s.d ∧
      SlotHolds t.trace (.kg .shift i) sh ∧ SlotHolds t.trace (.kg .cAfter i) c1 ∧
      SlotHolds t.trace (.kg .dAfter i) d1 ∧ SlotHolds t.trace (.kg .k i) k ∧
      SlotHolds t.trace (.k i) k ∧
      SameOutside s.trace t.trace [.kg .cBefore i, .kg .dBefore i, .kg .shift i, .kg .cAfter i,
        .kg .dAfter i, .kg .k i, .k i]

/-- R203: stage `IP`. -/
def Obligations.IpStage : Prop :=
  ∀ s : State, s.busy = true →
    let v : BitVec 64 := permute (s.slot .ptBin) s.tables.ip
    ∃ t, exec .ip s = .next t ∧
      t = { s with
        l := v.extractLsb' 32 32, r := v.extractLsb' 0 32, trace := t.trace, stage := 0x20,
        draws := t.draws } ∧
      (SlotWritten s.trace .ptBin → t.draws = s.draws) ∧
      SlotHolds t.trace .ipOut v ∧ SameOutside s.trace t.trace [.ipOut]

/-- R181 to R187: stage `RND(i+1)`. -/
def Obligations.RndStage : Prop :=
  ∀ (i : Fin 16) (s : State), s.busy = true →
    let k : BitVec 48 := (s.slot (.k i)).setWidth 48
    let exp : BitVec 48 := permute s.r s.tables.e
    let mix := exp ^^^ k
    let sub := substitute s.tables mix
    let pbox : BitVec 32 := permute sub s.tables.p
    let newr := s.l ^^^ pbox
    ∃ t, exec (.rnd i) s = .next t ∧
      t = { s with
        l := s.r, r := newr, trace := t.trace, draws := t.draws,
        stage := if i.val < 15 then BitVec.ofNat 6 (0x20 + i.val + 1) else 0x04 } ∧
      (SlotWritten s.trace (.k i) → t.draws = s.draws) ∧
      SlotHolds t.trace (.rnd .l i) s.l ∧ SlotHolds t.trace (.rnd .r i) s.r ∧
      SlotHolds t.trace (.rnd .exp i) exp ∧ SlotHolds t.trace (.rnd .k i) k ∧
      SlotHolds t.trace (.rnd .xor i) mix ∧ SlotHolds t.trace (.rnd .sbox i) sub ∧
      SlotHolds t.trace (.rnd .pbox i) pbox ∧ SlotHolds t.trace (.rnd .newr i) newr ∧
      SameOutside s.trace t.trace [.rnd .l i, .rnd .r i, .rnd .exp i, .rnd .k i, .rnd .xor i,
        .rnd .sbox i, .rnd .pbox i, .rnd .newr i]

/-- R204: stage `FP`. -/
def Obligations.FpStage : Prop :=
  ∀ s : State, s.busy = true →
    let ct : BitVec 64 := permute (s.r ++ s.l) s.tables.fp
    ∃ t, exec .fp s = .next t ∧
      t = { s with trace := t.trace, valid := true, busy := false, stage := 0x00 } ∧
      SlotHolds t.trace .ctBin ct ∧ AsciiHolds t.trace .ctHex ct ∧
      SameOutside s.trace t.trace [.ctBin, .ctHex]

/-- R200: the engine has no step while it is idle: its turn changes nothing, and no stage takes
effect without `BUSY = 1` (R206). -/
def Obligations.IdleEngineHasNoStep : Prop :=
  ∀ s : State, s.busy = false →
    exec .idle s = .next s ∧ exec .load s = .next s ∧ exec .pc1 s = .next s ∧
    exec .ip s = .next s ∧ exec .fp s = .next s ∧
    (∀ i, exec (.ks i) s = .next s) ∧ (∀ i, exec (.rnd i) s = .next s) ∧
    (s.turn = .engine → step s = .next { s with sched := s.sched.tail })

/-- R266: an engine step that finds `BUSY = 1` with `STAGE` equal to `IDLE` or a reserved code faults
with `ReservedStage`. The reserved rows fault in every state (R98, log 11). -/
def Obligations.ReservedStageFaults : Prop :=
  (∀ s : State, s.inReset = false → s.busy = true → s.turn = .engine →
    (s.stage.toNat = 0x00 ∨ (0x05 ≤ s.stage.toNat ∧ s.stage.toNat ≤ 0x0F) ∨ 0x30 ≤ s.stage.toNat) →
    step s = .fault .reservedStage) ∧
  (∀ s : State, exec .stageReserved05 s = .fault .reservedStage ∧
    (∀ b, exec (.stageReserved06to07 b) s = .fault .reservedStage) ∧
    (∀ b, exec (.stageReserved08to0F b) s = .fault .reservedStage) ∧
    (∀ b, exec (.stageReserved30to3F b) s = .fault .reservedStage))

/-- R28, R206: each engine step moves `STAGE` to its successor in the fixed sequence; `BUSY` falls and
`VALID` rises with the last stage only. -/
def Obligations.EngineFollowsTheSequence : Prop :=
  ∀ (n : Nat) (s : State), n < 36 → s.inReset = false → s.busy = true → s.turn = .engine →
    runSequence[n]? = some s.stage → ∃ t, step s = .next t ∧ runSequence[n + 1]? = some t.stage ∧
      t.busy = decide (n < 35) ∧ t.valid = (s.valid || decide (n = 35))

/-- R28, R235: `STAGE` changes only by a step of a busy engine, to the successor of its stage; by an
accepted `START`, a write to `CTRL` of code 4, to `LOAD`; or by the end of a reset, to `IDLE`. -/
def Obligations.StageChangesOnlyAsTheSequenceSays : Prop :=
  ∀ s t : State, step s = .next t → t.stage ≠ s.stage →
    (s.turn = .engine ∧ s.inReset = false ∧ s.busy = true ∧ ∃ n < 36,
      runSequence[n]? = some s.stage ∧ runSequence[n + 1]? = some t.stage) ∨
    (s.turn = .host ∧ s.inReset = false ∧
      (∃ (data : Word) (ops : List HostOp), data.toNat % 16 = 4 ∧
        s.program = .access ⟨0x004, 4, .write data⟩ :: ops) ∧
      s.busy = false ∧ s.fatal = false ∧ s.pt.mal = false ∧ s.key.mal = false ∧
      t.stage = 0x01 ∧ t.busy = true ∧ t.valid = false ∧ t.errMalformed = false) ∨
    (s.turn = .releaseReset ∧ s.inReset = true ∧ t.stage = 0x00 ∧ t.busy = false)

/-! ### Whole-machine rules -/

/-- R45, R36: no step changes `TABLES`, and no step but reset changes `FATAL`. -/
def Obligations.TablesNeverChangeAndFatalOnlyByReset : Prop :=
  ∀ s t : State, step s = .next t →
    t.tables = s.tables ∧ (¬(s.turn = .releaseReset ∧ s.inReset = true) → t.fatal = s.fatal)

/-- R40, R67: only a step of a busy engine writes the trace memory, and only reset makes its contents
unspecified: the host has no way to change it. -/
def Obligations.OnlyEngineStagesWriteTheTrace : Prop :=
  ∀ s t : State, step s = .next t →
    (¬(s.turn = .engine ∧ s.inReset = false ∧ s.busy = true) →
      ¬(s.turn = .releaseReset ∧ s.inReset = true) → t.trace = s.trace) ∧
    (s.turn = .releaseReset → s.inReset = true → ∀ a, Memory.get t.trace a = none)

/-- R262, R268: nothing the host does while a run is in progress disturbs it. Only the sticky error
bits and the model's own fields can change. -/
def Obligations.HostCannotDisturbARun : Prop :=
  ∀ s t : State, s.busy = true → s.turn = .host → step s = .next t →
    t = { s with
      errMalformed := t.errMalformed, errBusy := t.errBusy, errCmd := t.errCmd,
      draws := t.draws, response := t.response, program := t.program, sched := t.sched }

/-- R206: the engine step reads no host port and no status bit but `BUSY`: two engines that agree on
`TABLES`, the working registers, the buffers, `STAGE`, the trace memory and the reset input still agree
on them, on `BUSY` and on `STAGE` after their next step, whatever their hosts have done. -/
def Obligations.EngineStepDependsOnTheRunAlone : Prop :=
  ∀ s s' t t' : State, s.busy = true → s'.busy = true → s.turn = .engine → s'.turn = .engine →
    s.tables = s'.tables → s.c = s'.c → s.d = s'.d → s.l = s'.l → s.r = s'.r →
    s.pt.buf = s'.pt.buf → s.key.buf = s'.key.buf → s.stage = s'.stage → s.trace = s'.trace →
    s.inReset = s'.inReset → s.draws = s'.draws → step s = .next t → step s' = .next t' →
    t.c = t'.c ∧ t.d = t'.d ∧ t.l = t'.l ∧ t.r = t'.r ∧ t.stage = t'.stage ∧ t.busy = t'.busy ∧
    t.trace = t'.trace ∧ t.draws = t'.draws

/-- R210: an accepted `START` leaves 36 engine steps to take; each engine step takes one of them; no
host access adds or takes one. -/
def Obligations.RunTakesThirtySixSteps : Prop :=
  (∀ s t : State, s.busy = false → exec .start s = .next t → t.busy = true → t.stepsLeft = 36) ∧
  (∀ s t : State, s.Inv → s.inReset = false → s.busy = true → s.turn = .engine →
    step s = .next t → t.stepsLeft + 1 = s.stepsLeft) ∧
  (∀ s t : State, s.busy = true → s.turn = .host → step s = .next t → t.stepsLeft = s.stepsLeft) ∧
  (∀ s : State, s.Inv → (s.stepsLeft = 0 ↔ s.busy = false))

/-- R46: the invariants, and the agreement of the trace memory with `EncryptBlock`, hold after reset,
whatever the tables and whatever the host will do. -/
def Obligations.InvariantsHoldAfterReset : Prop :=
  ∀ (T : Tables) (program : List HostOp) (sched : List Turn),
    State.Inv { State.resetWith T with program := program, sched := sched } ∧
    State.TraceOk { State.resetWith T with program := program, sched := sched }

/-- R46, R27, R36: every step keeps the invariants. -/
def Obligations.EveryStepKeepsTheInvariants : Prop :=
  ∀ s t : State, s.Inv → step s = .next t → t.Inv

/-- R207, R208: every step, of the engine, of the host or of reset, keeps the agreement of the trace
memory and the working registers with `EncryptBlock`. -/
def Obligations.EveryStepKeepsTheTraceAgreement : Prop :=
  ∀ s t : State, s.Inv → s.TraceOk → step s = .next t → t.TraceOk

/-- R266, R268: no reachable machine stops: under every table set, host program and interleaving,
each step answers a next state. -/
def Obligations.ReachableMachineNeverStops : Prop :=
  ∀ s : State, Reachable s → ∃ t, step s = .next t

/-- R32, R208: in every reachable state with `VALID = 1` the trace memory holds, field for field, the
trace of some two blocks; and the step that completes a run leaves that of its own buffers. -/
def Obligations.CompletedRunHoldsItsTrace : Prop :=
  (∀ s : State, Reachable s → s.valid = true → ∃ p key : BitVec 64, ∀ f : TField,
    Memory.holds s.trace (encrypt s.tables p key) f) ∧
  (∀ s : State, Reachable s → s.inReset = false → s.busy = true → s.stage = 0x04 →
    s.turn = .engine → ∃ t, step s = .next t ∧ t.valid = true ∧ t.busy = false ∧ t.stage = 0x00 ∧
      ∀ f : TField, Memory.holds t.trace (encrypt s.tables s.pt.buf s.key.buf) f)

/-- R209: runs are deterministic. Two reachable machines with the same tables and the same input
buffers, each about to take the last step of its run, leave the same words in every trace field. -/
def Obligations.RunsAreDeterministic : Prop :=
  ∀ s s' t t' : State, Reachable s → Reachable s' → s.tables = s'.tables →
    s.pt.buf = s'.pt.buf → s.key.buf = s'.key.buf →
    s.inReset = false → s'.inReset = false →
    s.busy = true → s'.busy = true → s.stage = 0x04 → s'.stage = 0x04 →
    s.turn = .engine → s'.turn = .engine → step s = .next t → step s' = .next t' →
    ∀ f : TField, Memory.getWords t.trace f.offset f.words = Memory.getWords t'.trace f.offset f.words

/-- R205, R208, R293, R295: the host's order of work for one run, from any idle engine, for strings of
hex digits and under every interleaving of host accesses and engine steps, polls between engine steps
included. When the host is done, the trace memory holds the trace of `EncryptBlock` of the two strings
and the last `STATUS` the host read shows it. The host is done when its turns reach `START`, 36 turns
of the engine follow, and then two more of the host. -/
def Obligations.HostProgramEncryptsTheStrings : Prop :=
  ∀ (s : State) (pt key : List Char8), s.inReset = false → s.busy = false → s.fatal = false →
    pt.all isHex = true → key.all isHex = true → s.program = HostOp.bootRun pt key →
    (∀ m ∈ s.sched, m = .host ∨ m = .engine) →
    ∃ (t : State) (tr : CipherTrace),
      Host.Core.run Sys2Proof.core s.sched.length s = .next t ∧ t.sched = [] ∧
      encryptBlock s.tables pt key = .ok tr ∧
      (t.program = [] →
        (∀ f : TField, Memory.holds t.trace tr f) ∧
        t.valid = true ∧ t.busy = false ∧ t.errMalformed = false ∧ t.stage = 0x00 ∧
        ∃ w : Word, t.response = .read w ∧
          w.getLsbD 0 = false ∧ w.getLsbD 1 = true ∧ w.getLsbD 2 = false) ∧
      (∀ before during after : List Turn, s.sched = before ++ during ++ after →
        pt.length + key.length + 4 ≤ before.count .host → 36 ≤ during.count .engine →
        2 ≤ after.count .host → t.program = [])

/-- R235, R261: the commands and strings of a run, with a character outside the hex alphabet in either
string, start no run: `ERR_MALFORMED = 1`, `VALID = 0`, and the trace memory is as it was. -/
def Obligations.MalformedStringStartsNoRun : Prop :=
  ∀ (s : State) (pt key : List Char8), s.inReset = false → s.busy = false → s.fatal = false →
    (pt.any (fun ch => !isHex ch) = true ∨ key.any (fun ch => !isHex ch) = true) →
    s.program = HostOp.cmd 3 :: (HostOp.pts pt ++ HostOp.keys key ++ [HostOp.cmd 4]) →
    s.sched = List.replicate (pt.length + key.length + 2) .host →
    ∃ t : State, Host.Core.run Sys2Proof.core (pt.length + key.length + 2) s = .next t ∧
      encryptBlock s.tables pt key = .error .malformedInput ∧
      t.errMalformed = true ∧ t.valid = false ∧ t.busy = false ∧ t.stage = s.stage ∧
      t.trace = s.trace ∧ t.pt.mal = pt.any (fun ch => !isHex ch) ∧
      t.key.mal = key.any (fun ch => !isHex ch)

/-! ### The datapath -/

/-- R126: output position `j` of a permutation is input position `T[j]`. -/
def Obligations.PermutationMovesPositions : Prop :=
  ∀ (w m : Nat) (v : BitVec w) (t : Vector (BitVec 7) m) (j : Fin m),
    pos (permute v t) (j.val + 1) = pos v (t[j]).toNat

/-- R128: the leading `k` bits move to the tail. -/
def Obligations.RotationWrapsLeadingBits : Prop :=
  ∀ (x : BitVec 28) (k p : Nat), k ≤ 27 → 1 ≤ p → p ≤ 28 →
    pos (rotl28 x k) p = pos x ((p - 1 + k) % 28 + 1)

/-- R130, R131: group `g` of the substitution is the entry of `S(g+1)` in the row of the outer bits
and the column of the inner bits of the six bits `x[47-6g : 42-6g]`. -/
def Obligations.SubstitutionLooksUpEachGroup : Prop :=
  ∀ (T : Tables) (x : BitVec 48) (g : Fin 8),
    let b : BitVec 6 := x.extractLsb' (42 - 6 * g.val) 6
    let row := 2 * (b.getLsbD 5).toNat + (b.getLsbD 0).toNat
    let col := 8 * (b.getLsbD 4).toNat + 4 * (b.getLsbD 3).toNat + 2 * (b.getLsbD 2).toNat +
      (b.getLsbD 1).toNat
    (((T.sbox[g])[row]?).bind fun r => r[col]?) =
      some ((substitute T x).extractLsb' (28 - 4 * g.val) 4)

/-- R122, R123: `binaryToHex(hexToBinary(x)) == uppercase(x)` for every string of hex digits. -/
def Obligations.HexConversionRoundTrip : Prop :=
  ∀ str : List Char8, str.all isHex = true →
    ∃ b : BitVec (4 * str.length), hexToBinary str = .ok b ∧ binaryToHex b = str.map upper

/-- R151 (a), (b), (d), (f), (g), (h): what the reference tables hold. -/
def Obligations.ReferenceTableProperties : Prop :=
  desTables.wellFormed = true ∧
  (∀ n ∈ List.range' 1 64, desIp.toList.count (BitVec.ofNat 7 n) = 1 ∧
    desFp.toList.count (BitVec.ofNat 7 n) = 1) ∧
  (∀ n ∈ List.range' 1 32, desP.toList.count (BitVec.ofNat 7 n) = 1 ∧
    desE.toList.count (BitVec.ofNat 7 n) =
      if n ∈ [1, 4, 5, 8, 9, 12, 13, 16, 17, 20, 21, 24, 25, 28, 29, 32] then 2 else 1) ∧
  (∀ n ∈ List.range' 1 64, desPc1.toList.count (BitVec.ofNat 7 n) = if n % 8 = 0 then 0 else 1) ∧
  (∀ n ∈ List.range' 1 56, desPc2.toList.count (BitVec.ofNat 7 n) =
    if n ∈ [9, 18, 22, 25, 35, 38, 43, 54] then 0 else 1) ∧
  (∀ box ∈ desTables.sbox.toList, ∀ row ∈ box.toList, ∀ v : BitVec 4, row.toList.count v = 1) ∧
  (desShifts.toList.map BitVec.toNat).sum = 28

/-- R151 (c): for `DES_TABLES` the final permutation undoes the initial one. -/
def Obligations.FinalPermutationUndoesInitial : Prop :=
  ∀ x : BitVec 64, permute (permute x desTables.ip : BitVec 64) desTables.fp = x

/-- R163: for `DES_TABLES` the key registers return to their start after the 16 steps. -/
def Obligations.KeyRegistersReturnToStart : Prop :=
  ∀ key : BitVec 64, keyRegs desTables key 16 = keyRegs desTables key 0

/-- R160, R151 (e): for `DES_TABLES` two keys that differ in their parity bits only give the same
subkeys and the same ciphertext. -/
def Obligations.ParityBitsDoNotMatter : Prop :=
  ∀ p key key' : BitVec 64, key &&& 0xFEFEFEFEFEFEFEFE = key' &&& 0xFEFEFEFEFEFEFEFE →
    (keySchedule desTables key).ks = (keySchedule desTables key').ks ∧
    cipherText desTables p key = cipherText desTables p key'

/-- R188: in every trace, each round's halves are those the round before left, and each new right half
is the left half XOR `f(R, K)`; every round uses the subkey of its own index (R44). -/
def Obligations.RoundRecordsChain : Prop :=
  ∀ (T : Tables) (p key : BitVec 64) (i : Fin 16),
    let tr := encrypt T p key
    let g := tr.rounds[i]
    g.newr = g.l ^^^ g.pbox ∧ g.pbox = feistel T g.r g.k ∧ g.k = tr.keys.ks[i] ∧
    g.k = (tr.keys.steps[i]).k ∧
    (∀ j : Fin 16, j.val + 1 = i.val → g.l = (tr.rounds[j]).r ∧ g.r = (tr.rounds[j]).newr) ∧
    (i.val = 15 → tr.ct = permute (g.newr ++ g.r) T.fp)

/-- The test vector of R7 and spec/95_test_vectors.md section 1: a string of upper-case and one of
lower-case digits give `85E813540F0AB405`, and the trace holds both strings in upper case (C6). -/
def Obligations.KnownAnswer : Prop :=
  ∃ tr : CipherTrace, encryptBlock desTables
      [0x30, 0x31, 0x32, 0x33, 0x34, 0x35, 0x36, 0x37, 0x38, 0x39, 0x41, 0x42, 0x43, 0x44, 0x45, 0x46]
      [0x31, 0x33, 0x33, 0x34, 0x35, 0x37, 0x37, 0x39, 0x39, 0x62, 0x62, 0x63, 0x64, 0x66, 0x66, 0x31]
      = .ok tr ∧ tr.ct = 0x85E813540F0AB405 ∧
    tr.ptHex =
      [0x30, 0x31, 0x32, 0x33, 0x34, 0x35, 0x36, 0x37, 0x38, 0x39, 0x41, 0x42, 0x43, 0x44, 0x45, 0x46] ∧
    tr.keyHex =
      [0x31, 0x33, 0x33, 0x34, 0x35, 0x37, 0x37, 0x39, 0x39, 0x42, 0x42, 0x43, 0x44, 0x46, 0x46, 0x31]
end

