-- ==== Sys2Proof/Laws/Memory.lean ====
section
/-! SUPPORT. The laws of the trace memory: read after write, the canonical form, and which words a
field's write touches. -/

namespace Sys2Proof.Machine

@[simp] theorem Memory.get_nil (a : Nat) : Memory.get [] a = none := rfl

/-- Read after write. -/
theorem Memory.get_store (m : Memory) (a b : Nat) (w : Word) :
    Memory.get (Memory.store m a w) b = if b = a then some w else Memory.get m b := by
  induction m with
  | nil => simp [Memory.store, Memory.get, eq_comm]
  | cons kx m ih =>
    obtain ⟨k, x⟩ := kx
    simp only [Memory.store]
    split
    · simp [Memory.get, eq_comm]
    · split
      · next h =>
        subst h
        by_cases hb : b = a
        · simp [Memory.get, hb]
        · simp [Memory.get, hb, Ne.symm hb]
      · next h =>
        simp only [Memory.get, ih]
        by_cases hb : b = a
        · subst hb; simp [Ne.symm h]
        · simp [hb]

@[simp] theorem Memory.get_store_self (m : Memory) (a : Nat) (w : Word) :
    Memory.get (Memory.store m a w) a = some w := by simp [Memory.get_store]

theorem Memory.get_store_of_ne {a b : Nat} (m : Memory) (w : Word) (h : b ≠ a) :
    Memory.get (Memory.store m a w) b = Memory.get m b := by simp [Memory.get_store, h]

/-- What a slot write does to every word. -/
theorem Memory.get_putSlot {w : Nat} (m : Memory) (f : TField) (v : BitVec w) (b : Nat) :
    Memory.get (Memory.putSlot m f v) b =
      if b = f.offset + 4 then some ((v.setWidth 64).extractLsb' 0 32)
      else if b = f.offset then some ((v.setWidth 64).extractLsb' 32 32)
      else Memory.get m b := by
  simp [Memory.putSlot, slotWords, Memory.storeWords, Memory.get_store]

/-- What the write of an ASCII field does to every word. -/
theorem Memory.get_putAscii (m : Memory) (f : TField) (v : BitVec 128) (b : Nat) :
    Memory.get (Memory.putAscii m f v) b =
      if b = f.offset + 12 then some (v.extractLsb' 0 32)
      else if b = f.offset + 8 then some (v.extractLsb' 32 32)
      else if b = f.offset + 4 then some (v.extractLsb' 64 32)
      else if b = f.offset then some (v.extractLsb' 96 32)
      else Memory.get m b := by
  simp [Memory.putAscii, asciiWords, Memory.storeWords, Memory.get_store]

/-- Two memories that agree on a run of words give the same words. -/
theorem Memory.getWords_congr {m m' : Memory} {a n : Nat}
    (h : ∀ j, j < n → Memory.get m (a + 4 * j) = Memory.get m' (a + 4 * j)) :
    Memory.getWords m a n = Memory.getWords m' a n := by
  induction n generalizing a with
  | zero => rfl
  | succ n ih =>
    simp only [Memory.getWords]
    rw [ih fun j hj => by simpa [Nat.mul_add, Nat.add_assoc, Nat.add_comm 4] using h (j + 1) (by omega)]
    rw [show Memory.get m a = Memory.get m' a by simpa using h 0 (by omega)]

/-- A slot write leaves the value's two words in the field. -/
theorem Memory.getWords_putSlot_self {w : Nat} (m : Memory) (f : TField) (v : BitVec w) :
    Memory.getWords (Memory.putSlot m f v) f.offset 2 = (slotWords (v.setWidth 64)).map some := by
  simp [Memory.getWords, Memory.get_putSlot, slotWords]

/-- The write of an ASCII field leaves the value's four words in the field. -/
theorem Memory.getWords_putAscii_self (m : Memory) (f : TField) (v : BitVec 128) :
    Memory.getWords (Memory.putAscii m f v) f.offset 4 = (asciiWords v).map some := by
  simp [Memory.getWords, Memory.get_putAscii, asciiWords]

/-! ### The canonical form -/

theorem Memory.wf_iff_pairwise (m : Memory) :
    Memory.wf m = true ↔ m.Pairwise (fun x y => x.1 < y.1) := by
  induction m with
  | nil => simp [Memory.wf]
  | cons x m ih =>
    cases m with
    | nil => simp [Memory.wf]
    | cons y m =>
      simp only [Memory.wf, Bool.and_eq_true, decide_eq_true_eq, ih, List.pairwise_cons]
      constructor
      · rintro ⟨h, hy, hm⟩
        refine ⟨fun z hz => ?_, hy, hm⟩
        rcases List.mem_cons.1 hz with rfl | hz
        · exact h
        · exact lt_trans h (hy z hz)
      · rintro ⟨hx, hy, hm⟩
        exact ⟨hx y (by simp), hy, hm⟩

/-- A written memory lists the new cell and cells it listed before, nothing else. -/
theorem Memory.mem_store {m : Memory} {a : Nat} {w : Word} {c : Nat × Word}
    (h : c ∈ Memory.store m a w) : c = (a, w) ∨ c ∈ m := by
  induction m with
  | nil => simpa [Memory.store] using h
  | cons kx m ih =>
    obtain ⟨k, x⟩ := kx
    simp only [Memory.store] at h
    split at h
    · simpa using h
    · split at h
      · rcases List.mem_cons.1 h with h | h
        · exact .inl h
        · exact .inr (List.mem_cons_of_mem _ h)
      · rcases List.mem_cons.1 h with h | h
        · exact .inr (by simp [h])
        · exact (ih h).imp_right (List.mem_cons_of_mem _)

/-- A write keeps the canonical form. -/
theorem Memory.wf_store {m : Memory} (h : Memory.wf m = true) (a : Nat) (w : Word) :
    Memory.wf (Memory.store m a w) = true := by
  rw [Memory.wf_iff_pairwise] at h ⊢
  induction m with
  | nil => simp [Memory.store]
  | cons kx m ih =>
    obtain ⟨k, x⟩ := kx
    rw [List.pairwise_cons] at h
    simp only [Memory.store]
    split
    · next hlt =>
      refine List.pairwise_cons.2 ⟨fun z hz => ?_, List.pairwise_cons.2 h⟩
      rcases List.mem_cons.1 hz with rfl | hz
      · exact hlt
      · exact lt_trans hlt (h.1 z hz)
    · next hlt =>
      split
      · next heq => subst heq; exact List.pairwise_cons.2 h
      · next hne =>
        refine List.pairwise_cons.2 ⟨fun z hz => ?_, ih h.2⟩
        rcases Memory.mem_store hz with rfl | hz
        · exact lt_of_le_of_ne (not_lt.1 hlt) (Ne.symm hne)
        · exact h.1 z hz

theorem Memory.wf_storeWords {m : Memory} (h : Memory.wf m = true) (a : Nat) (ws : List Word) :
    Memory.wf (Memory.storeWords m a ws) = true := by
  induction ws generalizing m a with
  | nil => exact h
  | cons w ws ih => exact ih (Memory.wf_store h a w) _

theorem Memory.wf_putSlot {m : Memory} (h : Memory.wf m = true) {w : Nat} (f : TField)
    (v : BitVec w) : Memory.wf (Memory.putSlot m f v) = true := Memory.wf_storeWords h _ _

theorem Memory.wf_putAscii {m : Memory} (h : Memory.wf m = true) (f : TField) (v : BitVec 128) :
    Memory.wf (Memory.putAscii m f v) = true := Memory.wf_storeWords h _ _

theorem wf_putKg {m : Memory} (h : Memory.wf m = true) (i : Fin 16) (g : KgRecord) :
    Memory.wf (putKg m i g) = true := by
  unfold putKg
  iterate 7 apply Memory.wf_putSlot
  exact h

theorem wf_putRnd {m : Memory} (h : Memory.wf m = true) (i : Fin 16) (g : RoundRecord) :
    Memory.wf (putRnd m i g) = true := by
  unfold putRnd
  iterate 8 apply Memory.wf_putSlot
  exact h

/-! ### Which cells a field's write can list -/

theorem Memory.mem_storeWords {m : Memory} {a : Nat} {ws : List Word} {c : Nat × Word}
    (h : c ∈ Memory.storeWords m a ws) :
    c ∈ m ∨ ∃ j, j < ws.length ∧ c.1 = a + 4 * j := by
  induction ws generalizing m a with
  | nil => exact .inl h
  | cons w ws ih =>
    rcases ih h with h | ⟨j, hj, hc⟩
    · rcases Memory.mem_store h with rfl | h
      · exact .inr ⟨0, by simp, by simp⟩
      · exact .inl h
    · exact .inr ⟨j + 1, by simpa using hj, by omega⟩

theorem Memory.mem_putSlot {w : Nat} {m : Memory} {f : TField} {v : BitVec w} {c : Nat × Word}
    (h : c ∈ Memory.putSlot m f v) : c ∈ m ∨ c.1 = f.offset ∨ c.1 = f.offset + 4 := by
  rcases Memory.mem_storeWords h with h | ⟨j, hj, hc⟩
  · exact .inl h
  · have : j = 0 ∨ j = 1 := by simp [slotWords] at hj; omega
    rcases this with rfl | rfl
    · exact .inr (.inl (by simpa using hc))
    · exact .inr (.inr (by simpa using hc))

end Sys2Proof.Machine
end

