-- ==== Sys2Proof/Laws/State.lean ====
section
/-! SUPPORT. One lemma per field per update of `State`, so that no proof unfolds a record update. -/

namespace Sys2Proof.Machine

/-! ### `respond` -/

@[simp] theorem State.respond_tables (s : State) (a : Response) : (s.respond a).tables = s.tables := rfl
@[simp] theorem State.respond_c (s : State) (a : Response) : (s.respond a).c = s.c := rfl
@[simp] theorem State.respond_d (s : State) (a : Response) : (s.respond a).d = s.d := rfl
@[simp] theorem State.respond_l (s : State) (a : Response) : (s.respond a).l = s.l := rfl
@[simp] theorem State.respond_r (s : State) (a : Response) : (s.respond a).r = s.r := rfl
@[simp] theorem State.respond_pt (s : State) (a : Response) : (s.respond a).pt = s.pt := rfl
@[simp] theorem State.respond_key (s : State) (a : Response) : (s.respond a).key = s.key := rfl
@[simp] theorem State.respond_stage (s : State) (a : Response) : (s.respond a).stage = s.stage := rfl
@[simp] theorem State.respond_busy (s : State) (a : Response) : (s.respond a).busy = s.busy := rfl
@[simp] theorem State.respond_valid (s : State) (a : Response) : (s.respond a).valid = s.valid := rfl
@[simp] theorem State.respond_errMalformed (s : State) (a : Response) : (s.respond a).errMalformed = s.errMalformed := rfl
@[simp] theorem State.respond_errBusy (s : State) (a : Response) : (s.respond a).errBusy = s.errBusy := rfl
@[simp] theorem State.respond_errCmd (s : State) (a : Response) : (s.respond a).errCmd = s.errCmd := rfl
@[simp] theorem State.respond_fatal (s : State) (a : Response) : (s.respond a).fatal = s.fatal := rfl
@[simp] theorem State.respond_trace (s : State) (a : Response) : (s.respond a).trace = s.trace := rfl
@[simp] theorem State.respond_draws (s : State) (a : Response) : (s.respond a).draws = s.draws := rfl
@[simp] theorem State.respond_response (s : State) (a : Response) : (s.respond a).response = a := rfl
@[simp] theorem State.respond_program (s : State) (a : Response) : (s.respond a).program = s.program := rfl
@[simp] theorem State.respond_inReset (s : State) (a : Response) : (s.respond a).inReset = s.inReset := rfl
@[simp] theorem State.respond_sched (s : State) (a : Response) : (s.respond a).sched = s.sched := rfl

/-! ### `passTurn` -/

@[simp] theorem State.passTurn_tables (s : State) : (s.passTurn).tables = s.tables := rfl
@[simp] theorem State.passTurn_c (s : State) : (s.passTurn).c = s.c := rfl
@[simp] theorem State.passTurn_d (s : State) : (s.passTurn).d = s.d := rfl
@[simp] theorem State.passTurn_l (s : State) : (s.passTurn).l = s.l := rfl
@[simp] theorem State.passTurn_r (s : State) : (s.passTurn).r = s.r := rfl
@[simp] theorem State.passTurn_pt (s : State) : (s.passTurn).pt = s.pt := rfl
@[simp] theorem State.passTurn_key (s : State) : (s.passTurn).key = s.key := rfl
@[simp] theorem State.passTurn_stage (s : State) : (s.passTurn).stage = s.stage := rfl
@[simp] theorem State.passTurn_busy (s : State) : (s.passTurn).busy = s.busy := rfl
@[simp] theorem State.passTurn_valid (s : State) : (s.passTurn).valid = s.valid := rfl
@[simp] theorem State.passTurn_errMalformed (s : State) : (s.passTurn).errMalformed = s.errMalformed := rfl
@[simp] theorem State.passTurn_errBusy (s : State) : (s.passTurn).errBusy = s.errBusy := rfl
@[simp] theorem State.passTurn_errCmd (s : State) : (s.passTurn).errCmd = s.errCmd := rfl
@[simp] theorem State.passTurn_fatal (s : State) : (s.passTurn).fatal = s.fatal := rfl
@[simp] theorem State.passTurn_trace (s : State) : (s.passTurn).trace = s.trace := rfl
@[simp] theorem State.passTurn_draws (s : State) : (s.passTurn).draws = s.draws := rfl
@[simp] theorem State.passTurn_response (s : State) : (s.passTurn).response = s.response := rfl
@[simp] theorem State.passTurn_program (s : State) : (s.passTurn).program = s.program := rfl
@[simp] theorem State.passTurn_inReset (s : State) : (s.passTurn).inReset = s.inReset := rfl
@[simp] theorem State.passTurn_sched (s : State) : (s.passTurn).sched = s.sched.tail := rfl

/-! ### `passOp` -/

@[simp] theorem State.passOp_tables (s : State) : (s.passOp).tables = s.tables := rfl
@[simp] theorem State.passOp_c (s : State) : (s.passOp).c = s.c := rfl
@[simp] theorem State.passOp_d (s : State) : (s.passOp).d = s.d := rfl
@[simp] theorem State.passOp_l (s : State) : (s.passOp).l = s.l := rfl
@[simp] theorem State.passOp_r (s : State) : (s.passOp).r = s.r := rfl
@[simp] theorem State.passOp_pt (s : State) : (s.passOp).pt = s.pt := rfl
@[simp] theorem State.passOp_key (s : State) : (s.passOp).key = s.key := rfl
@[simp] theorem State.passOp_stage (s : State) : (s.passOp).stage = s.stage := rfl
@[simp] theorem State.passOp_busy (s : State) : (s.passOp).busy = s.busy := rfl
@[simp] theorem State.passOp_valid (s : State) : (s.passOp).valid = s.valid := rfl
@[simp] theorem State.passOp_errMalformed (s : State) : (s.passOp).errMalformed = s.errMalformed := rfl
@[simp] theorem State.passOp_errBusy (s : State) : (s.passOp).errBusy = s.errBusy := rfl
@[simp] theorem State.passOp_errCmd (s : State) : (s.passOp).errCmd = s.errCmd := rfl
@[simp] theorem State.passOp_fatal (s : State) : (s.passOp).fatal = s.fatal := rfl
@[simp] theorem State.passOp_trace (s : State) : (s.passOp).trace = s.trace := rfl
@[simp] theorem State.passOp_draws (s : State) : (s.passOp).draws = s.draws := rfl
@[simp] theorem State.passOp_response (s : State) : (s.passOp).response = s.response := rfl
@[simp] theorem State.passOp_program (s : State) : (s.passOp).program = s.program.tail := rfl
@[simp] theorem State.passOp_inReset (s : State) : (s.passOp).inReset = s.inReset := rfl
@[simp] theorem State.passOp_sched (s : State) : (s.passOp).sched = s.sched := rfl

/-! ### `clearErrors` -/

@[simp] theorem State.clearErrors_tables (s : State) : (s.clearErrors).tables = s.tables := rfl
@[simp] theorem State.clearErrors_c (s : State) : (s.clearErrors).c = s.c := rfl
@[simp] theorem State.clearErrors_d (s : State) : (s.clearErrors).d = s.d := rfl
@[simp] theorem State.clearErrors_l (s : State) : (s.clearErrors).l = s.l := rfl
@[simp] theorem State.clearErrors_r (s : State) : (s.clearErrors).r = s.r := rfl
@[simp] theorem State.clearErrors_pt (s : State) : (s.clearErrors).pt = s.pt := rfl
@[simp] theorem State.clearErrors_key (s : State) : (s.clearErrors).key = s.key := rfl
@[simp] theorem State.clearErrors_stage (s : State) : (s.clearErrors).stage = s.stage := rfl
@[simp] theorem State.clearErrors_busy (s : State) : (s.clearErrors).busy = s.busy := rfl
@[simp] theorem State.clearErrors_valid (s : State) : (s.clearErrors).valid = s.valid := rfl
@[simp] theorem State.clearErrors_errMalformed (s : State) : (s.clearErrors).errMalformed = false := rfl
@[simp] theorem State.clearErrors_errBusy (s : State) : (s.clearErrors).errBusy = false := rfl
@[simp] theorem State.clearErrors_errCmd (s : State) : (s.clearErrors).errCmd = false := rfl
@[simp] theorem State.clearErrors_fatal (s : State) : (s.clearErrors).fatal = s.fatal := rfl
@[simp] theorem State.clearErrors_trace (s : State) : (s.clearErrors).trace = s.trace := rfl
@[simp] theorem State.clearErrors_draws (s : State) : (s.clearErrors).draws = s.draws := rfl
@[simp] theorem State.clearErrors_response (s : State) : (s.clearErrors).response = s.response := rfl
@[simp] theorem State.clearErrors_program (s : State) : (s.clearErrors).program = s.program := rfl
@[simp] theorem State.clearErrors_inReset (s : State) : (s.clearErrors).inReset = s.inReset := rfl
@[simp] theorem State.clearErrors_sched (s : State) : (s.clearErrors).sched = s.sched := rfl

/-! ### `raise .malformedInput` -/

@[simp] theorem State.raise_malformedInput_tables (s : State) : (s.raise .malformedInput).tables = s.tables := rfl
@[simp] theorem State.raise_malformedInput_c (s : State) : (s.raise .malformedInput).c = s.c := rfl
@[simp] theorem State.raise_malformedInput_d (s : State) : (s.raise .malformedInput).d = s.d := rfl
@[simp] theorem State.raise_malformedInput_l (s : State) : (s.raise .malformedInput).l = s.l := rfl
@[simp] theorem State.raise_malformedInput_r (s : State) : (s.raise .malformedInput).r = s.r := rfl
@[simp] theorem State.raise_malformedInput_pt (s : State) : (s.raise .malformedInput).pt = s.pt := rfl
@[simp] theorem State.raise_malformedInput_key (s : State) : (s.raise .malformedInput).key = s.key := rfl
@[simp] theorem State.raise_malformedInput_stage (s : State) : (s.raise .malformedInput).stage = s.stage := rfl
@[simp] theorem State.raise_malformedInput_busy (s : State) : (s.raise .malformedInput).busy = s.busy := rfl
@[simp] theorem State.raise_malformedInput_valid (s : State) : (s.raise .malformedInput).valid = s.valid := rfl
@[simp] theorem State.raise_malformedInput_errMalformed (s : State) : (s.raise .malformedInput).errMalformed = true := rfl
@[simp] theorem State.raise_malformedInput_errBusy (s : State) : (s.raise .malformedInput).errBusy = s.errBusy := rfl
@[simp] theorem State.raise_malformedInput_errCmd (s : State) : (s.raise .malformedInput).errCmd = s.errCmd := rfl
@[simp] theorem State.raise_malformedInput_fatal (s : State) : (s.raise .malformedInput).fatal = s.fatal := rfl
@[simp] theorem State.raise_malformedInput_trace (s : State) : (s.raise .malformedInput).trace = s.trace := rfl
@[simp] theorem State.raise_malformedInput_draws (s : State) : (s.raise .malformedInput).draws = s.draws := rfl
@[simp] theorem State.raise_malformedInput_response (s : State) : (s.raise .malformedInput).response = s.response := rfl
@[simp] theorem State.raise_malformedInput_program (s : State) : (s.raise .malformedInput).program = s.program := rfl
@[simp] theorem State.raise_malformedInput_inReset (s : State) : (s.raise .malformedInput).inReset = s.inReset := rfl
@[simp] theorem State.raise_malformedInput_sched (s : State) : (s.raise .malformedInput).sched = s.sched := rfl

/-! ### `raise .errBusy` -/

@[simp] theorem State.raise_errBusy_tables (s : State) : (s.raise .errBusy).tables = s.tables := rfl
@[simp] theorem State.raise_errBusy_c (s : State) : (s.raise .errBusy).c = s.c := rfl
@[simp] theorem State.raise_errBusy_d (s : State) : (s.raise .errBusy).d = s.d := rfl
@[simp] theorem State.raise_errBusy_l (s : State) : (s.raise .errBusy).l = s.l := rfl
@[simp] theorem State.raise_errBusy_r (s : State) : (s.raise .errBusy).r = s.r := rfl
@[simp] theorem State.raise_errBusy_pt (s : State) : (s.raise .errBusy).pt = s.pt := rfl
@[simp] theorem State.raise_errBusy_key (s : State) : (s.raise .errBusy).key = s.key := rfl
@[simp] theorem State.raise_errBusy_stage (s : State) : (s.raise .errBusy).stage = s.stage := rfl
@[simp] theorem State.raise_errBusy_busy (s : State) : (s.raise .errBusy).busy = s.busy := rfl
@[simp] theorem State.raise_errBusy_valid (s : State) : (s.raise .errBusy).valid = s.valid := rfl
@[simp] theorem State.raise_errBusy_errMalformed (s : State) : (s.raise .errBusy).errMalformed = s.errMalformed := rfl
@[simp] theorem State.raise_errBusy_errBusy (s : State) : (s.raise .errBusy).errBusy = true := rfl
@[simp] theorem State.raise_errBusy_errCmd (s : State) : (s.raise .errBusy).errCmd = s.errCmd := rfl
@[simp] theorem State.raise_errBusy_fatal (s : State) : (s.raise .errBusy).fatal = s.fatal := rfl
@[simp] theorem State.raise_errBusy_trace (s : State) : (s.raise .errBusy).trace = s.trace := rfl
@[simp] theorem State.raise_errBusy_draws (s : State) : (s.raise .errBusy).draws = s.draws := rfl
@[simp] theorem State.raise_errBusy_response (s : State) : (s.raise .errBusy).response = s.response := rfl
@[simp] theorem State.raise_errBusy_program (s : State) : (s.raise .errBusy).program = s.program := rfl
@[simp] theorem State.raise_errBusy_inReset (s : State) : (s.raise .errBusy).inReset = s.inReset := rfl
@[simp] theorem State.raise_errBusy_sched (s : State) : (s.raise .errBusy).sched = s.sched := rfl

/-! ### `raise .errCmd` -/

@[simp] theorem State.raise_errCmd_tables (s : State) : (s.raise .errCmd).tables = s.tables := rfl
@[simp] theorem State.raise_errCmd_c (s : State) : (s.raise .errCmd).c = s.c := rfl
@[simp] theorem State.raise_errCmd_d (s : State) : (s.raise .errCmd).d = s.d := rfl
@[simp] theorem State.raise_errCmd_l (s : State) : (s.raise .errCmd).l = s.l := rfl
@[simp] theorem State.raise_errCmd_r (s : State) : (s.raise .errCmd).r = s.r := rfl
@[simp] theorem State.raise_errCmd_pt (s : State) : (s.raise .errCmd).pt = s.pt := rfl
@[simp] theorem State.raise_errCmd_key (s : State) : (s.raise .errCmd).key = s.key := rfl
@[simp] theorem State.raise_errCmd_stage (s : State) : (s.raise .errCmd).stage = s.stage := rfl
@[simp] theorem State.raise_errCmd_busy (s : State) : (s.raise .errCmd).busy = s.busy := rfl
@[simp] theorem State.raise_errCmd_valid (s : State) : (s.raise .errCmd).valid = s.valid := rfl
@[simp] theorem State.raise_errCmd_errMalformed (s : State) : (s.raise .errCmd).errMalformed = s.errMalformed := rfl
@[simp] theorem State.raise_errCmd_errBusy (s : State) : (s.raise .errCmd).errBusy = s.errBusy := rfl
@[simp] theorem State.raise_errCmd_errCmd (s : State) : (s.raise .errCmd).errCmd = true := rfl
@[simp] theorem State.raise_errCmd_fatal (s : State) : (s.raise .errCmd).fatal = s.fatal := rfl
@[simp] theorem State.raise_errCmd_trace (s : State) : (s.raise .errCmd).trace = s.trace := rfl
@[simp] theorem State.raise_errCmd_draws (s : State) : (s.raise .errCmd).draws = s.draws := rfl
@[simp] theorem State.raise_errCmd_response (s : State) : (s.raise .errCmd).response = s.response := rfl
@[simp] theorem State.raise_errCmd_program (s : State) : (s.raise .errCmd).program = s.program := rfl
@[simp] theorem State.raise_errCmd_inReset (s : State) : (s.raise .errCmd).inReset = s.inReset := rfl
@[simp] theorem State.raise_errCmd_sched (s : State) : (s.raise .errCmd).sched = s.sched := rfl

/-! ### `raise .invariantViolation` -/

@[simp] theorem State.raise_invariantViolation_tables (s : State) : (s.raise .invariantViolation).tables = s.tables := rfl
@[simp] theorem State.raise_invariantViolation_c (s : State) : (s.raise .invariantViolation).c = s.c := rfl
@[simp] theorem State.raise_invariantViolation_d (s : State) : (s.raise .invariantViolation).d = s.d := rfl
@[simp] theorem State.raise_invariantViolation_l (s : State) : (s.raise .invariantViolation).l = s.l := rfl
@[simp] theorem State.raise_invariantViolation_r (s : State) : (s.raise .invariantViolation).r = s.r := rfl
@[simp] theorem State.raise_invariantViolation_pt (s : State) : (s.raise .invariantViolation).pt = s.pt := rfl
@[simp] theorem State.raise_invariantViolation_key (s : State) : (s.raise .invariantViolation).key = s.key := rfl
@[simp] theorem State.raise_invariantViolation_stage (s : State) : (s.raise .invariantViolation).stage = s.stage := rfl
@[simp] theorem State.raise_invariantViolation_busy (s : State) : (s.raise .invariantViolation).busy = s.busy := rfl
@[simp] theorem State.raise_invariantViolation_valid (s : State) : (s.raise .invariantViolation).valid = s.valid := rfl
@[simp] theorem State.raise_invariantViolation_errMalformed (s : State) : (s.raise .invariantViolation).errMalformed = s.errMalformed := rfl
@[simp] theorem State.raise_invariantViolation_errBusy (s : State) : (s.raise .invariantViolation).errBusy = s.errBusy := rfl
@[simp] theorem State.raise_invariantViolation_errCmd (s : State) : (s.raise .invariantViolation).errCmd = s.errCmd := rfl
@[simp] theorem State.raise_invariantViolation_fatal (s : State) : (s.raise .invariantViolation).fatal = true := rfl
@[simp] theorem State.raise_invariantViolation_trace (s : State) : (s.raise .invariantViolation).trace = s.trace := rfl
@[simp] theorem State.raise_invariantViolation_draws (s : State) : (s.raise .invariantViolation).draws = s.draws := rfl
@[simp] theorem State.raise_invariantViolation_response (s : State) : (s.raise .invariantViolation).response = s.response := rfl
@[simp] theorem State.raise_invariantViolation_program (s : State) : (s.raise .invariantViolation).program = s.program := rfl
@[simp] theorem State.raise_invariantViolation_inReset (s : State) : (s.raise .invariantViolation).inReset = s.inReset := rfl
@[simp] theorem State.raise_invariantViolation_sched (s : State) : (s.raise .invariantViolation).sched = s.sched := rfl

/-! ### `raise .busError` -/

@[simp] theorem State.raise_busError_tables (s : State) : (s.raise .busError).tables = s.tables := rfl
@[simp] theorem State.raise_busError_c (s : State) : (s.raise .busError).c = s.c := rfl
@[simp] theorem State.raise_busError_d (s : State) : (s.raise .busError).d = s.d := rfl
@[simp] theorem State.raise_busError_l (s : State) : (s.raise .busError).l = s.l := rfl
@[simp] theorem State.raise_busError_r (s : State) : (s.raise .busError).r = s.r := rfl
@[simp] theorem State.raise_busError_pt (s : State) : (s.raise .busError).pt = s.pt := rfl
@[simp] theorem State.raise_busError_key (s : State) : (s.raise .busError).key = s.key := rfl
@[simp] theorem State.raise_busError_stage (s : State) : (s.raise .busError).stage = s.stage := rfl
@[simp] theorem State.raise_busError_busy (s : State) : (s.raise .busError).busy = s.busy := rfl
@[simp] theorem State.raise_busError_valid (s : State) : (s.raise .busError).valid = s.valid := rfl
@[simp] theorem State.raise_busError_errMalformed (s : State) : (s.raise .busError).errMalformed = s.errMalformed := rfl
@[simp] theorem State.raise_busError_errBusy (s : State) : (s.raise .busError).errBusy = s.errBusy := rfl
@[simp] theorem State.raise_busError_errCmd (s : State) : (s.raise .busError).errCmd = s.errCmd := rfl
@[simp] theorem State.raise_busError_fatal (s : State) : (s.raise .busError).fatal = s.fatal := rfl
@[simp] theorem State.raise_busError_trace (s : State) : (s.raise .busError).trace = s.trace := rfl
@[simp] theorem State.raise_busError_draws (s : State) : (s.raise .busError).draws = s.draws := rfl
@[simp] theorem State.raise_busError_response (s : State) : (s.raise .busError).response = s.response := rfl
@[simp] theorem State.raise_busError_program (s : State) : (s.raise .busError).program = s.program := rfl
@[simp] theorem State.raise_busError_inReset (s : State) : (s.raise .busError).inReset = s.inReset := rfl
@[simp] theorem State.raise_busError_sched (s : State) : (s.raise .busError).sched = s.sched := rfl

/-! ### `setInput .pt` -/

@[simp] theorem State.setInput_pt_tables (s : State) (f : InputField) : (s.setInput .pt f).tables = s.tables := rfl
@[simp] theorem State.setInput_pt_c (s : State) (f : InputField) : (s.setInput .pt f).c = s.c := rfl
@[simp] theorem State.setInput_pt_d (s : State) (f : InputField) : (s.setInput .pt f).d = s.d := rfl
@[simp] theorem State.setInput_pt_l (s : State) (f : InputField) : (s.setInput .pt f).l = s.l := rfl
@[simp] theorem State.setInput_pt_r (s : State) (f : InputField) : (s.setInput .pt f).r = s.r := rfl
@[simp] theorem State.setInput_pt_pt (s : State) (f : InputField) : (s.setInput .pt f).pt = f := rfl
@[simp] theorem State.setInput_pt_key (s : State) (f : InputField) : (s.setInput .pt f).key = s.key := rfl
@[simp] theorem State.setInput_pt_stage (s : State) (f : InputField) : (s.setInput .pt f).stage = s.stage := rfl
@[simp] theorem State.setInput_pt_busy (s : State) (f : InputField) : (s.setInput .pt f).busy = s.busy := rfl
@[simp] theorem State.setInput_pt_valid (s : State) (f : InputField) : (s.setInput .pt f).valid = s.valid := rfl
@[simp] theorem State.setInput_pt_errMalformed (s : State) (f : InputField) : (s.setInput .pt f).errMalformed = s.errMalformed := rfl
@[simp] theorem State.setInput_pt_errBusy (s : State) (f : InputField) : (s.setInput .pt f).errBusy = s.errBusy := rfl
@[simp] theorem State.setInput_pt_errCmd (s : State) (f : InputField) : (s.setInput .pt f).errCmd = s.errCmd := rfl
@[simp] theorem State.setInput_pt_fatal (s : State) (f : InputField) : (s.setInput .pt f).fatal = s.fatal := rfl
@[simp] theorem State.setInput_pt_trace (s : State) (f : InputField) : (s.setInput .pt f).trace = s.trace := rfl
@[simp] theorem State.setInput_pt_draws (s : State) (f : InputField) : (s.setInput .pt f).draws = s.draws := rfl
@[simp] theorem State.setInput_pt_response (s : State) (f : InputField) : (s.setInput .pt f).response = s.response := rfl
@[simp] theorem State.setInput_pt_program (s : State) (f : InputField) : (s.setInput .pt f).program = s.program := rfl
@[simp] theorem State.setInput_pt_inReset (s : State) (f : InputField) : (s.setInput .pt f).inReset = s.inReset := rfl
@[simp] theorem State.setInput_pt_sched (s : State) (f : InputField) : (s.setInput .pt f).sched = s.sched := rfl

/-! ### `setInput .key` -/

@[simp] theorem State.setInput_key_tables (s : State) (f : InputField) : (s.setInput .key f).tables = s.tables := rfl
@[simp] theorem State.setInput_key_c (s : State) (f : InputField) : (s.setInput .key f).c = s.c := rfl
@[simp] theorem State.setInput_key_d (s : State) (f : InputField) : (s.setInput .key f).d = s.d := rfl
@[simp] theorem State.setInput_key_l (s : State) (f : InputField) : (s.setInput .key f).l = s.l := rfl
@[simp] theorem State.setInput_key_r (s : State) (f : InputField) : (s.setInput .key f).r = s.r := rfl
@[simp] theorem State.setInput_key_pt (s : State) (f : InputField) : (s.setInput .key f).pt = s.pt := rfl
@[simp] theorem State.setInput_key_key (s : State) (f : InputField) : (s.setInput .key f).key = f := rfl
@[simp] theorem State.setInput_key_stage (s : State) (f : InputField) : (s.setInput .key f).stage = s.stage := rfl
@[simp] theorem State.setInput_key_busy (s : State) (f : InputField) : (s.setInput .key f).busy = s.busy := rfl
@[simp] theorem State.setInput_key_valid (s : State) (f : InputField) : (s.setInput .key f).valid = s.valid := rfl
@[simp] theorem State.setInput_key_errMalformed (s : State) (f : InputField) : (s.setInput .key f).errMalformed = s.errMalformed := rfl
@[simp] theorem State.setInput_key_errBusy (s : State) (f : InputField) : (s.setInput .key f).errBusy = s.errBusy := rfl
@[simp] theorem State.setInput_key_errCmd (s : State) (f : InputField) : (s.setInput .key f).errCmd = s.errCmd := rfl
@[simp] theorem State.setInput_key_fatal (s : State) (f : InputField) : (s.setInput .key f).fatal = s.fatal := rfl
@[simp] theorem State.setInput_key_trace (s : State) (f : InputField) : (s.setInput .key f).trace = s.trace := rfl
@[simp] theorem State.setInput_key_draws (s : State) (f : InputField) : (s.setInput .key f).draws = s.draws := rfl
@[simp] theorem State.setInput_key_response (s : State) (f : InputField) : (s.setInput .key f).response = s.response := rfl
@[simp] theorem State.setInput_key_program (s : State) (f : InputField) : (s.setInput .key f).program = s.program := rfl
@[simp] theorem State.setInput_key_inReset (s : State) (f : InputField) : (s.setInput .key f).inReset = s.inReset := rfl
@[simp] theorem State.setInput_key_sched (s : State) (f : InputField) : (s.setInput .key f).sched = s.sched := rfl

/-! ### `noteReads` -/

@[simp] theorem State.noteReads_tables (s : State) (offs : List Nat) : (s.noteReads offs).tables = s.tables := by
  unfold State.noteReads; split <;> rfl
@[simp] theorem State.noteReads_c (s : State) (offs : List Nat) : (s.noteReads offs).c = s.c := by
  unfold State.noteReads; split <;> rfl
@[simp] theorem State.noteReads_d (s : State) (offs : List Nat) : (s.noteReads offs).d = s.d := by
  unfold State.noteReads; split <;> rfl
@[simp] theorem State.noteReads_l (s : State) (offs : List Nat) : (s.noteReads offs).l = s.l := by
  unfold State.noteReads; split <;> rfl
@[simp] theorem State.noteReads_r (s : State) (offs : List Nat) : (s.noteReads offs).r = s.r := by
  unfold State.noteReads; split <;> rfl
@[simp] theorem State.noteReads_pt (s : State) (offs : List Nat) : (s.noteReads offs).pt = s.pt := by
  unfold State.noteReads; split <;> rfl
@[simp] theorem State.noteReads_key (s : State) (offs : List Nat) : (s.noteReads offs).key = s.key := by
  unfold State.noteReads; split <;> rfl
@[simp] theorem State.noteReads_stage (s : State) (offs : List Nat) : (s.noteReads offs).stage = s.stage := by
  unfold State.noteReads; split <;> rfl
@[simp] theorem State.noteReads_busy (s : State) (offs : List Nat) : (s.noteReads offs).busy = s.busy := by
  unfold State.noteReads; split <;> rfl
@[simp] theorem State.noteReads_valid (s : State) (offs : List Nat) : (s.noteReads offs).valid = s.valid := by
  unfold State.noteReads; split <;> rfl
@[simp] theorem State.noteReads_errMalformed (s : State) (offs : List Nat) : (s.noteReads offs).errMalformed = s.errMalformed := by
  unfold State.noteReads; split <;> rfl
@[simp] theorem State.noteReads_errBusy (s : State) (offs : List Nat) : (s.noteReads offs).errBusy = s.errBusy := by
  unfold State.noteReads; split <;> rfl
@[simp] theorem State.noteReads_errCmd (s : State) (offs : List Nat) : (s.noteReads offs).errCmd = s.errCmd := by
  unfold State.noteReads; split <;> rfl
@[simp] theorem State.noteReads_fatal (s : State) (offs : List Nat) : (s.noteReads offs).fatal = s.fatal := by
  unfold State.noteReads; split <;> rfl
@[simp] theorem State.noteReads_trace (s : State) (offs : List Nat) : (s.noteReads offs).trace = s.trace := by
  unfold State.noteReads; split <;> rfl
@[simp] theorem State.noteReads_draws (s : State) (offs : List Nat) : (s.noteReads offs).draws = if offs.all (fun a => (Memory.get s.trace a).isSome) then s.draws else s.draws + 1 := by
  unfold State.noteReads; split <;> rfl
@[simp] theorem State.noteReads_response (s : State) (offs : List Nat) : (s.noteReads offs).response = s.response := by
  unfold State.noteReads; split <;> rfl
@[simp] theorem State.noteReads_program (s : State) (offs : List Nat) : (s.noteReads offs).program = s.program := by
  unfold State.noteReads; split <;> rfl
@[simp] theorem State.noteReads_inReset (s : State) (offs : List Nat) : (s.noteReads offs).inReset = s.inReset := by
  unfold State.noteReads; split <;> rfl
@[simp] theorem State.noteReads_sched (s : State) (offs : List Nat) : (s.noteReads offs).sched = s.sched := by
  unfold State.noteReads; split <;> rfl

/-! ### `noteSlot` -/

@[simp] theorem State.noteSlot_tables (s : State) (f : TField) : (s.noteSlot f).tables = s.tables := State.noteReads_tables s _
@[simp] theorem State.noteSlot_c (s : State) (f : TField) : (s.noteSlot f).c = s.c := State.noteReads_c s _
@[simp] theorem State.noteSlot_d (s : State) (f : TField) : (s.noteSlot f).d = s.d := State.noteReads_d s _
@[simp] theorem State.noteSlot_l (s : State) (f : TField) : (s.noteSlot f).l = s.l := State.noteReads_l s _
@[simp] theorem State.noteSlot_r (s : State) (f : TField) : (s.noteSlot f).r = s.r := State.noteReads_r s _
@[simp] theorem State.noteSlot_pt (s : State) (f : TField) : (s.noteSlot f).pt = s.pt := State.noteReads_pt s _
@[simp] theorem State.noteSlot_key (s : State) (f : TField) : (s.noteSlot f).key = s.key := State.noteReads_key s _
@[simp] theorem State.noteSlot_stage (s : State) (f : TField) : (s.noteSlot f).stage = s.stage := State.noteReads_stage s _
@[simp] theorem State.noteSlot_busy (s : State) (f : TField) : (s.noteSlot f).busy = s.busy := State.noteReads_busy s _
@[simp] theorem State.noteSlot_valid (s : State) (f : TField) : (s.noteSlot f).valid = s.valid := State.noteReads_valid s _
@[simp] theorem State.noteSlot_errMalformed (s : State) (f : TField) : (s.noteSlot f).errMalformed = s.errMalformed := State.noteReads_errMalformed s _
@[simp] theorem State.noteSlot_errBusy (s : State) (f : TField) : (s.noteSlot f).errBusy = s.errBusy := State.noteReads_errBusy s _
@[simp] theorem State.noteSlot_errCmd (s : State) (f : TField) : (s.noteSlot f).errCmd = s.errCmd := State.noteReads_errCmd s _
@[simp] theorem State.noteSlot_fatal (s : State) (f : TField) : (s.noteSlot f).fatal = s.fatal := State.noteReads_fatal s _
@[simp] theorem State.noteSlot_trace (s : State) (f : TField) : (s.noteSlot f).trace = s.trace := State.noteReads_trace s _
@[simp] theorem State.noteSlot_response (s : State) (f : TField) : (s.noteSlot f).response = s.response := State.noteReads_response s _
@[simp] theorem State.noteSlot_program (s : State) (f : TField) : (s.noteSlot f).program = s.program := State.noteReads_program s _
@[simp] theorem State.noteSlot_inReset (s : State) (f : TField) : (s.noteSlot f).inReset = s.inReset := State.noteReads_inReset s _
@[simp] theorem State.noteSlot_sched (s : State) (f : TField) : (s.noteSlot f).sched = s.sched := State.noteReads_sched s _

/-! ### `noteRead` -/

@[simp] theorem State.noteRead_tables (s : State) (off : Offset) : (s.noteRead off).tables = s.tables := by
  unfold State.noteRead; split <;> simp
@[simp] theorem State.noteRead_c (s : State) (off : Offset) : (s.noteRead off).c = s.c := by
  unfold State.noteRead; split <;> simp
@[simp] theorem State.noteRead_d (s : State) (off : Offset) : (s.noteRead off).d = s.d := by
  unfold State.noteRead; split <;> simp
@[simp] theorem State.noteRead_l (s : State) (off : Offset) : (s.noteRead off).l = s.l := by
  unfold State.noteRead; split <;> simp
@[simp] theorem State.noteRead_r (s : State) (off : Offset) : (s.noteRead off).r = s.r := by
  unfold State.noteRead; split <;> simp
@[simp] theorem State.noteRead_pt (s : State) (off : Offset) : (s.noteRead off).pt = s.pt := by
  unfold State.noteRead; split <;> simp
@[simp] theorem State.noteRead_key (s : State) (off : Offset) : (s.noteRead off).key = s.key := by
  unfold State.noteRead; split <;> simp
@[simp] theorem State.noteRead_stage (s : State) (off : Offset) : (s.noteRead off).stage = s.stage := by
  unfold State.noteRead; split <;> simp
@[simp] theorem State.noteRead_busy (s : State) (off : Offset) : (s.noteRead off).busy = s.busy := by
  unfold State.noteRead; split <;> simp
@[simp] theorem State.noteRead_valid (s : State) (off : Offset) : (s.noteRead off).valid = s.valid := by
  unfold State.noteRead; split <;> simp
@[simp] theorem State.noteRead_errMalformed (s : State) (off : Offset) : (s.noteRead off).errMalformed = s.errMalformed := by
  unfold State.noteRead; split <;> simp
@[simp] theorem State.noteRead_errBusy (s : State) (off : Offset) : (s.noteRead off).errBusy = s.errBusy := by
  unfold State.noteRead; split <;> simp
@[simp] theorem State.noteRead_errCmd (s : State) (off : Offset) : (s.noteRead off).errCmd = s.errCmd := by
  unfold State.noteRead; split <;> simp
@[simp] theorem State.noteRead_fatal (s : State) (off : Offset) : (s.noteRead off).fatal = s.fatal := by
  unfold State.noteRead; split <;> simp
@[simp] theorem State.noteRead_trace (s : State) (off : Offset) : (s.noteRead off).trace = s.trace := by
  unfold State.noteRead; split <;> simp
@[simp] theorem State.noteRead_response (s : State) (off : Offset) : (s.noteRead off).response = s.response := by
  unfold State.noteRead; split <;> simp
@[simp] theorem State.noteRead_program (s : State) (off : Offset) : (s.noteRead off).program = s.program := by
  unfold State.noteRead; split <;> simp
@[simp] theorem State.noteRead_inReset (s : State) (off : Offset) : (s.noteRead off).inReset = s.inReset := by
  unfold State.noteRead; split <;> simp
@[simp] theorem State.noteRead_sched (s : State) (off : Offset) : (s.noteRead off).sched = s.sched := by
  unfold State.noteRead; split <;> simp

/-! ### `busError` -/

@[simp] theorem State.busError_tables (s : State) (k : AccessKind) : (s.busError k).tables = s.tables := rfl
@[simp] theorem State.busError_c (s : State) (k : AccessKind) : (s.busError k).c = s.c := rfl
@[simp] theorem State.busError_d (s : State) (k : AccessKind) : (s.busError k).d = s.d := rfl
@[simp] theorem State.busError_l (s : State) (k : AccessKind) : (s.busError k).l = s.l := rfl
@[simp] theorem State.busError_r (s : State) (k : AccessKind) : (s.busError k).r = s.r := rfl
@[simp] theorem State.busError_pt (s : State) (k : AccessKind) : (s.busError k).pt = s.pt := rfl
@[simp] theorem State.busError_key (s : State) (k : AccessKind) : (s.busError k).key = s.key := rfl
@[simp] theorem State.busError_stage (s : State) (k : AccessKind) : (s.busError k).stage = s.stage := rfl
@[simp] theorem State.busError_busy (s : State) (k : AccessKind) : (s.busError k).busy = s.busy := rfl
@[simp] theorem State.busError_valid (s : State) (k : AccessKind) : (s.busError k).valid = s.valid := rfl
@[simp] theorem State.busError_errMalformed (s : State) (k : AccessKind) : (s.busError k).errMalformed = s.errMalformed := rfl
@[simp] theorem State.busError_errBusy (s : State) (k : AccessKind) : (s.busError k).errBusy = s.errBusy := rfl
@[simp] theorem State.busError_errCmd (s : State) (k : AccessKind) : (s.busError k).errCmd = s.errCmd := rfl
@[simp] theorem State.busError_fatal (s : State) (k : AccessKind) : (s.busError k).fatal = s.fatal := rfl
@[simp] theorem State.busError_trace (s : State) (k : AccessKind) : (s.busError k).trace = s.trace := rfl
@[simp] theorem State.busError_draws (s : State) (k : AccessKind) : (s.busError k).draws = s.draws := rfl
@[simp] theorem State.busError_response (s : State) (k : AccessKind) : (s.busError k).response = match k with | .read => .readError 0 | .write _ => .writeError := rfl
@[simp] theorem State.busError_program (s : State) (k : AccessKind) : (s.busError k).program = s.program := rfl
@[simp] theorem State.busError_inReset (s : State) (k : AccessKind) : (s.busError k).inReset = s.inReset := rfl
@[simp] theorem State.busError_sched (s : State) (k : AccessKind) : (s.busError k).sched = s.sched := rfl

/-! ### Reading the registers of a field back -/

@[simp] theorem State.input_setInput (s : State) (n : InputName) (f : InputField) :
    (s.setInput n f).input n = f := by cases n <;> rfl

@[simp] theorem State.input_pt (s : State) : s.input .pt = s.pt := rfl
@[simp] theorem State.input_key (s : State) : s.input .key = s.key := rfl

/-- Writing back what stands there changes nothing. -/
@[simp] theorem State.setInput_input (s : State) (n : InputName) : s.setInput n (s.input n) = s := by
  cases n <;> rfl

/-! ### Reset -/

@[simp] theorem State.assertReset_inReset (s : State) : s.assertReset.inReset = true := rfl
@[simp] theorem State.assertReset_tables (s : State) : s.assertReset.tables = s.tables := rfl
@[simp] theorem State.assertReset_c (s : State) : s.assertReset.c = s.c := rfl
@[simp] theorem State.assertReset_d (s : State) : s.assertReset.d = s.d := rfl
@[simp] theorem State.assertReset_l (s : State) : s.assertReset.l = s.l := rfl
@[simp] theorem State.assertReset_r (s : State) : s.assertReset.r = s.r := rfl
@[simp] theorem State.assertReset_pt (s : State) : s.assertReset.pt = s.pt := rfl
@[simp] theorem State.assertReset_key (s : State) : s.assertReset.key = s.key := rfl
@[simp] theorem State.assertReset_stage (s : State) : s.assertReset.stage = s.stage := rfl
@[simp] theorem State.assertReset_busy (s : State) : s.assertReset.busy = s.busy := rfl
@[simp] theorem State.assertReset_valid (s : State) : s.assertReset.valid = s.valid := rfl
@[simp] theorem State.assertReset_errMalformed (s : State) : s.assertReset.errMalformed = s.errMalformed := rfl
@[simp] theorem State.assertReset_errBusy (s : State) : s.assertReset.errBusy = s.errBusy := rfl
@[simp] theorem State.assertReset_errCmd (s : State) : s.assertReset.errCmd = s.errCmd := rfl
@[simp] theorem State.assertReset_fatal (s : State) : s.assertReset.fatal = s.fatal := rfl
@[simp] theorem State.assertReset_trace (s : State) : s.assertReset.trace = s.trace := rfl
@[simp] theorem State.assertReset_draws (s : State) : s.assertReset.draws = s.draws := rfl
@[simp] theorem State.assertReset_response (s : State) : s.assertReset.response = s.response := rfl
@[simp] theorem State.assertReset_program (s : State) : s.assertReset.program = s.program := rfl
@[simp] theorem State.assertReset_sched (s : State) : s.assertReset.sched = s.sched := rfl

@[simp] theorem State.afterReset_tables (s : State) : s.afterReset.tables = s.tables := rfl
@[simp] theorem State.afterReset_pt (s : State) : s.afterReset.pt = .empty := rfl
@[simp] theorem State.afterReset_key (s : State) : s.afterReset.key = .empty := rfl
@[simp] theorem State.afterReset_stage (s : State) : s.afterReset.stage = stageIdle := rfl
@[simp] theorem State.afterReset_busy (s : State) : s.afterReset.busy = false := rfl
@[simp] theorem State.afterReset_valid (s : State) : s.afterReset.valid = false := rfl
@[simp] theorem State.afterReset_errMalformed (s : State) : s.afterReset.errMalformed = false := rfl
@[simp] theorem State.afterReset_errBusy (s : State) : s.afterReset.errBusy = false := rfl
@[simp] theorem State.afterReset_errCmd (s : State) : s.afterReset.errCmd = false := rfl
@[simp] theorem State.afterReset_fatal (s : State) : s.afterReset.fatal = !s.tables.wellFormed := rfl
@[simp] theorem State.afterReset_trace (s : State) : s.afterReset.trace = [] := rfl
@[simp] theorem State.afterReset_inReset (s : State) : s.afterReset.inReset = false := rfl
@[simp] theorem State.afterReset_response (s : State) : s.afterReset.response = .none := rfl
@[simp] theorem State.afterReset_draws (s : State) : s.afterReset.draws = s.draws := rfl
@[simp] theorem State.afterReset_program (s : State) : s.afterReset.program = s.program := rfl
@[simp] theorem State.afterReset_sched (s : State) : s.afterReset.sched = s.sched := rfl

end Sys2Proof.Machine
end

