-- ==== Sys2Proof/Laws/Ops.lean ====
section
/-! SUPPORT. What each shared operation does, said once. -/

namespace Sys2Proof.Machine

/-! ### Port writes -/

theorem State.portWrite_of_fatal {f : State → State} {s : State} (h : s.fatal = true) :
    s.portWrite f = s.respond .written := by simp [State.portWrite, h]

theorem State.portWrite_of_not_fatal {f : State → State} {s : State} (h : s.fatal = false) :
    s.portWrite f = (f s).respond .written := by simp [State.portWrite, h]

/-- A port write leaves the state as it was or gives it the effect; the bus accepts it either way. -/
theorem State.portWrite_cases (f : State → State) (s : State) :
    (s.fatal = true ∧ s.portWrite f = s.respond .written) ∨
      (s.fatal = false ∧ s.portWrite f = (f s).respond .written) := by
  cases h : s.fatal
  · exact .inr ⟨rfl, portWrite_of_not_fatal h⟩
  · exact .inl ⟨rfl, portWrite_of_fatal h⟩

@[simp] theorem State.portWrite_response (f : State → State) (s : State) :
    (s.portWrite f).response = .written := rfl

/-! ### Effects that need the engine idle -/

theorem State.whenIdle_of_busy {f : State → State} {s : State} (h : s.busy = true) :
    s.whenIdle f = s.raise .errBusy := by simp [State.whenIdle, h]

theorem State.whenIdle_of_idle {f : State → State} {s : State} (h : s.busy = false) :
    s.whenIdle f = f s := by simp [State.whenIdle, h]

theorem State.whenIdle_cases (f : State → State) (s : State) :
    (s.busy = true ∧ s.whenIdle f = s.raise .errBusy) ∨ (s.busy = false ∧ s.whenIdle f = f s) := by
  cases h : s.busy
  · exact .inr ⟨rfl, whenIdle_of_idle h⟩
  · exact .inl ⟨rfl, whenIdle_of_busy h⟩

/-! ### Engine steps -/

theorem State.engineStep_of_busy {f : State → State} {c : BitVec 6} {s : State} (h : s.busy = true) :
    s.engineStep f c = { f s with stage := c } := by simp [State.engineStep, h]

theorem State.engineStep_of_idle {f : State → State} {c : BitVec 6} {s : State}
    (h : s.busy = false) : s.engineStep f c = s := by simp [State.engineStep, h]

/-! ### ASCII fields -/

/-- The field `LOAD` and `FP` write for a value is its string of uppercase digits (R123, R201). -/
theorem packChars_binaryToHex (v : BitVec 64) :
    packChars (binaryToHex (n := 16) v) = asciiHex16 v := by
  simp only [packChars, binaryToHex, asciiHex16, nibble, List.foldl_map]

/-! ### Whose turn it is -/

theorem State.turn_cons {s : State} {t : Turn} {ts : List Turn} (h : s.sched = t :: ts) :
    s.turn = t := by simp [State.turn, h]

theorem State.turn_nil {s : State} (h : s.sched = []) :
    s.turn = if s.inReset then .releaseReset else if s.busy then .engine else .host := by simp [State.turn, h]

theorem State.fetchStage_of_busy {s : State} (h : s.busy = true) :
    s.fetchStage = decodeStage s.stage := by simp [State.fetchStage, h]

theorem State.fetchStage_of_idle {s : State} (h : s.busy = false) : s.fetchStage = .idle := by
  simp [State.fetchStage, h]

/-! ### Reset -/

theorem State.releaseReset_of_held {s : State} (h : s.inReset = true) :
    s.releaseReset = s.afterReset := by simp [State.releaseReset, h]

theorem State.releaseReset_of_not_held {s : State} (h : s.inReset = false) :
    s.releaseReset = s := by simp [State.releaseReset, h]

/-- Releasing the reset input ends a reset, or finds none asserted and changes nothing. -/
theorem State.releaseReset_cases (s : State) :
    (s.inReset = true ∧ s.releaseReset = s.afterReset) ∨
      (s.inReset = false ∧ s.releaseReset = s) := by
  cases h : s.inReset
  · exact .inr ⟨rfl, releaseReset_of_not_held h⟩
  · exact .inl ⟨rfl, releaseReset_of_held h⟩

/-! ### The engine's turn -/

theorem State.engineTurn_of_held {run : Instr → State → Host.Outcome State Fault Refusal} {s : State}
    (h : s.inReset = true) : s.engineTurn run = .next s := by simp [State.engineTurn, h]

theorem State.engineTurn_of_not_held {run : Instr → State → Host.Outcome State Fault Refusal}
    {s : State} (h : s.inReset = false) : s.engineTurn run = run s.fetchStage s := by
  simp [State.engineTurn, h]

/-! ### The host's turn -/

theorem State.hostTurn_of_held {run : Instr → State → Host.Outcome State Fault Refusal} {s : State}
    (h : s.inReset = true) : s.hostTurn run = .next s := by simp [State.hostTurn, h]

theorem State.hostTurn_of_not_held {run : Instr → State → Host.Outcome State Fault Refusal}
    {s : State} (h : s.inReset = false) : s.hostTurn run = s.hostOperation run := by
  simp [State.hostTurn, h]

theorem State.hostOperation_nil {run : Instr → State → Host.Outcome State Fault Refusal} {s : State}
    (h : s.program = []) : s.hostOperation run = .next s := by simp [State.hostOperation, h]

theorem State.hostOperation_access {run : Instr → State → Host.Outcome State Fault Refusal}
    {s : State} {a : BusAccess} {ops : List HostOp} (h : s.program = .access a :: ops) :
    s.hostOperation run = run (decodeHbus a) s.passOp := by simp [State.hostOperation, h]

theorem State.hostOperation_poll {run : Instr → State → Host.Outcome State Fault Refusal} {s t : State}
    {off : Offset} {mask val : Word} {ops : List HostOp} (h : s.program = .poll off mask val :: ops)
    (hr : run (decodeHbus ⟨off, 4, .read⟩) s = .next t) :
    s.hostOperation run = .next (if pollDone t.response mask val then t.passOp else t) := by
  simp [State.hostOperation, h, hr]

/-! ### The next state of each kind of instruction, which `exec` answers on every path -/

/-- Every instruction but `IDLE` and the reserved stage codes answers a next state in every state. -/
theorem exec_next_of_not_idle (i : Instr) (s : State)
    (h : i ≠ .idle) (h5 : i ≠ .stageReserved05) (h6 : ∀ b, i ≠ .stageReserved06to07 b)
    (h8 : ∀ b, i ≠ .stageReserved08to0F b) (h3 : ∀ b, i ≠ .stageReserved30to3F b) :
    ∃ t, exec i s = .next t := by
  cases i with
  | idle => exact absurd rfl h
  | stageReserved05 => exact absurd rfl h5
  | stageReserved06to07 b => exact absurd rfl (h6 b)
  | stageReserved08to0F b => exact absurd rfl (h8 b)
  | stageReserved30to3F b => exact absurd rfl (h3 b)
  | rd off => simp only [exec, execRd]; split <;> exact ⟨_, rfl⟩
  | _ => exact ⟨_, rfl⟩

end Sys2Proof.Machine
end

