-- ==== Sys2Proof/Laws/PerInstr.lean ====
section
/-! SUPPORT. Statements made for every instruction, one lemma per constructor: the encoding of a
well-formed instruction has the bits that its row of spec/opcode_table.json fixes. -/

namespace Sys2Proof.Laws.TableRow

/-- A row's `match` and `mask` in spec/opcode_table.json, letter for letter. -/
def row : Instr → Nat × Nat
  | .rd _ => (0x0000, 0x1003)
  | .wrCtrl _ => (0x1004, 0x1FFF)
  | .wrPtChar _ => (0x1010, 0x1FFF)
  | .wrKeyChar _ => (0x1014, 0x1FFF)
  | .wrIgnored _ _ => (0x1000, 0x1003)
  | .busErrorOff0 _ => (0x0001, 0x0001)
  | .busErrorOff1 _ => (0x0002, 0x0002)
  | .nop => (0x00000000, 0x0000000F)
  | .clrPt => (0x00000001, 0x0000000F)
  | .clrKey => (0x00000002, 0x0000000F)
  | .clrIn => (0x00000003, 0x0000000F)
  | .start => (0x00000004, 0x0000000F)
  | .ack => (0x00000005, 0x0000000F)
  | .cmdReserved6to7 _ => (0x00000006, 0x0000000E)
  | .cmdReserved8toF _ => (0x00000008, 0x00000008)
  | .idle => (0x00, 0x3F)
  | .load => (0x01, 0x3F)
  | .pc1 => (0x02, 0x3F)
  | .ip => (0x03, 0x3F)
  | .fp => (0x04, 0x3F)
  | .ks _ => (0x10, 0x30)
  | .rnd _ => (0x20, 0x30)
  | .stageReserved05 => (0x05, 0x3F)
  | .stageReserved06to07 _ => (0x06, 0x3E)
  | .stageReserved08to0F _ => (0x08, 0x38)
  | .stageReserved30to3F _ => (0x30, 0x30)

/-- The encoded bits, numbered as the table numbers them. -/
def bits : CodeWord → Nat
  | .hbus a => (hbusBits a).toNat
  | .cmd w => w.toNat
  | .stage c => c.toNat

/-- The size a transaction carries beside its 13 bits (R91); 4 for the other formats. -/
def size : CodeWord → Nat
  | .hbus a => a.size
  | _ => 4

/-- The encoding has the fixed bits of the row. The row `OFF[0]=1` also takes every access of another
size, whose bits are free (R66). -/
def Statement (i : Instr) : Prop :=
  i.wellFormed = true → size (encode i) = 4 → bits (encode i) &&& (row i).2 = (row i).1

theorem aligned_bits : ∀ off : BitVec 12, off.extractLsb' 0 2 = 0 →
    ((0 : BitVec 1) ++ off).toNat &&& 0x1003 = 0 ∧
    ((1 : BitVec 1) ++ off).toNat &&& 0x1003 = 0x1000 := by decide +revert

theorem low_bits : ∀ off : BitVec 12, ∀ b : BitVec 1,
    (off.getLsbD 0 = true → (b ++ off).toNat &&& 1 = 1) ∧
    (off.getLsbD 1 = true → (b ++ off).toNat &&& 2 = 2) := by decide +revert

theorem rd (off : Offset) : Statement (.rd off) := fun h _ =>
  (aligned_bits off (by simpa [Instr.wellFormed, Offset.aligned] using h)).1

theorem wrCtrl (data : Word) : Statement (.wrCtrl data) := fun _ _ => by
  simp [encode, bits, hbusBits, row]

theorem wrPtChar (data : Word) : Statement (.wrPtChar data) := fun _ _ => by
  simp [encode, bits, hbusBits, row]

theorem wrKeyChar (data : Word) : Statement (.wrKeyChar data) := fun _ _ => by
  simp [encode, bits, hbusBits, row]

theorem wrIgnored (off : Offset) (data : Word) : Statement (.wrIgnored off data) := fun h _ =>
  (aligned_bits off (by
    simp only [Instr.wellFormed, Offset.aligned, Bool.and_eq_true, beq_iff_eq] at h
    exact h.1)).2

theorem busErrorOff0 (a : BusAccess) : Statement (.busErrorOff0 a) := fun h hs => by
  have h4 : a.size = 4 := hs
  have h0 : a.off.getLsbD 0 = true := by simpa [Instr.wellFormed, h4] using h
  exact (low_bits a.off _).1 h0

theorem busErrorOff1 (a : BusAccess) : Statement (.busErrorOff1 a) := fun h _ => by
  simp only [Instr.wellFormed, Bool.and_eq_true] at h
  exact (low_bits a.off _).2 h.2

theorem nop : Statement .nop := fun _ _ => by decide
theorem clrPt : Statement .clrPt := fun _ _ => by decide
theorem clrKey : Statement .clrKey := fun _ _ => by decide
theorem clrIn : Statement .clrIn := fun _ _ => by decide
theorem start : Statement .start := fun _ _ => by decide
theorem ack : Statement .ack := fun _ _ => by decide

theorem cmdReserved6to7 (low : BitVec 1) : Statement (.cmdReserved6to7 low) := fun _ _ => by
  revert low; decide

theorem cmdReserved8toF (low : BitVec 3) : Statement (.cmdReserved8toF low) := fun _ _ => by
  revert low; decide

theorem idle : Statement .idle := fun _ _ => by decide
theorem load : Statement .load := fun _ _ => by decide
theorem pc1 : Statement .pc1 := fun _ _ => by decide
theorem ip : Statement .ip := fun _ _ => by decide
theorem fp : Statement .fp := fun _ _ => by decide
theorem ks (i : Fin 16) : Statement (.ks i) := fun _ _ => by revert i; decide
theorem rnd (i : Fin 16) : Statement (.rnd i) := fun _ _ => by revert i; decide
theorem stageReserved05 : Statement .stageReserved05 := fun _ _ => by decide

theorem stageReserved06to07 (low : BitVec 1) : Statement (.stageReserved06to07 low) := fun _ _ => by
  revert low; decide

theorem stageReserved08to0F (low : BitVec 3) : Statement (.stageReserved08to0F low) := fun _ _ => by
  revert low; decide

theorem stageReserved30to3F (low : BitVec 4) : Statement (.stageReserved30to3F low) := fun _ _ => by
  revert low; decide

end Sys2Proof.Laws.TableRow
end

