-- ==== Sys2Proof/Laws/Step.lean ====
section
/-! SUPPORT. What a step can do, said once: the turns, the effect of any bus access, the
sequencing of a stage. -/

namespace Sys2Proof.Machine

/-- What one bus access can make of a state: a refused access, a read, an ignored write, a command, a
character. -/
def HostEffect (s t : State) : Prop :=
  (∃ kind, t = s.busError kind) ∨
  (∃ off, t = (s.noteRead off).respond (.read (s.readWord off))) ∨
  t = s.respond .written ∨
  (∃ code, t = s.portWrite (commandEffect code)) ∨
  (∃ n data, t = s.portWrite (charInEffect n data))

/-- Every bus access answers a next state, of one of those forms. -/
theorem exec_decodeHbus (a : BusAccess) (s : State) :
    ∃ t, exec (decodeHbus a) s = .next t ∧ HostEffect s t := by
  unfold decodeHbus
  split
  · exact ⟨_, rfl, .inl ⟨_, rfl⟩⟩
  · split
    · exact ⟨_, rfl, .inl ⟨_, rfl⟩⟩
    · cases a.kind with
      | read =>
        simp only [exec, execRd]
        split
        · exact ⟨_, rfl, .inr (.inl ⟨_, rfl⟩)⟩
        · exact ⟨_, rfl, .inl ⟨_, rfl⟩⟩
      | write data =>
        simp only
        split
        · exact ⟨_, rfl, .inr (.inr (.inr (.inl ⟨_, rfl⟩)))⟩
        · split
          · exact ⟨_, rfl, .inr (.inr (.inr (.inr ⟨.pt, _, rfl⟩)))⟩
          · split
            · exact ⟨_, rfl, .inr (.inr (.inr (.inr ⟨.key, _, rfl⟩)))⟩
            · exact ⟨_, rfl, .inr (.inr (.inl rfl))⟩

/-- The host's operation: nothing left to do, or the effect of one bus access, past the operation or
not. -/
theorem hostOperation_cases (s : State) :
    ∃ t, s.hostOperation exec = .next t ∧
      (t = s ∨ HostEffect s t ∨ HostEffect s.passOp t ∨ ∃ u, HostEffect s u ∧ t = u.passOp) := by
  cases hp : s.program with
  | nil => exact ⟨s, State.hostOperation_nil hp, .inl rfl⟩
  | cons op ops =>
    cases op with
    | access a =>
      obtain ⟨t, ht, he⟩ := exec_decodeHbus a s.passOp
      exact ⟨t, by rw [State.hostOperation_access hp, ht], .inr (.inr (.inl he))⟩
    | poll off mask val =>
      obtain ⟨t, ht, he⟩ := exec_decodeHbus ⟨off, 4, .read⟩ s
      refine ⟨_, State.hostOperation_poll hp ht, ?_⟩
      split
      · exact .inr (.inr (.inr ⟨t, he, rfl⟩))
      · exact .inr (.inl he)

/-- While reset is asserted, a turn of the host or the engine changes nothing of either (R290). -/
theorem step_of_held {s : State} (h : s.inReset = true) (ht : s.turn = .host ∨ s.turn = .engine) :
    step s = .next s.passTurn := by
  have hp : s.passTurn.inReset = true := h
  obtain ht | ht := ht
  · simp only [step, ht, State.hostTurn_of_held hp]
  · simp only [step, ht, State.engineTurn_of_held hp]

/-- What a step that answers a next state did. -/
theorem step_cases {s t : State} (h : step s = .next t) :
    (s.turn = .assertReset ∧ t = s.passTurn.assertReset) ∨
    (s.turn = .releaseReset ∧ s.inReset = true ∧ t = s.passTurn.afterReset) ∨
    (s.turn = .releaseReset ∧ s.inReset = false ∧ t = s.passTurn) ∨
    ((s.turn = .host ∨ s.turn = .engine) ∧ s.inReset = true ∧ t = s.passTurn) ∨
    (s.turn = .engine ∧ s.inReset = false ∧ s.busy = false ∧ t = s.passTurn) ∨
    (s.turn = .engine ∧ s.inReset = false ∧ s.busy = true ∧
      exec (decodeStage s.stage) s.passTurn = .next t) ∨
    (s.turn = .host ∧ s.inReset = false ∧ s.passTurn.hostOperation exec = .next t) := by
  cases ht : s.turn with
  | assertReset =>
    simp only [step, ht, Host.Outcome.next.injEq] at h
    exact .inl ⟨rfl, h.symm⟩
  | releaseReset =>
    simp only [step, ht, Host.Outcome.next.injEq] at h
    obtain ⟨hr, hs⟩ | ⟨hr, hs⟩ := State.releaseReset_cases s.passTurn
    · exact .inr (.inl ⟨rfl, hr, h.symm.trans hs⟩)
    · exact .inr (.inr (.inl ⟨rfl, hr, h.symm.trans hs⟩))
  | host =>
    cases hr : s.inReset with
    | true =>
      rw [step_of_held hr (.inl ht), Host.Outcome.next.injEq] at h
      exact .inr (.inr (.inr (.inl ⟨.inl rfl, rfl, h.symm⟩)))
    | false =>
      simp only [step, ht, State.hostTurn_of_not_held (s := s.passTurn) hr] at h
      exact .inr (.inr (.inr (.inr (.inr (.inr ⟨rfl, rfl, h⟩)))))
  | engine =>
    cases hr : s.inReset with
    | true =>
      rw [step_of_held hr (.inr ht), Host.Outcome.next.injEq] at h
      exact .inr (.inr (.inr (.inl ⟨.inr rfl, rfl, h.symm⟩)))
    | false =>
      simp only [step, ht, State.engineTurn_of_not_held (s := s.passTurn) hr] at h
      cases hb : s.busy with
      | true =>
        rw [State.fetchStage_of_busy (s := s.passTurn) hb] at h
        exact .inr (.inr (.inr (.inr (.inr (.inl ⟨rfl, rfl, rfl, h⟩)))))
      | false =>
        rw [State.fetchStage_of_idle (s := s.passTurn) hb] at h
        simp only [exec, execIdle, State.passTurn_busy, hb, Bool.false_eq_true, if_false,
          Host.Outcome.next.injEq] at h
        exact .inr (.inr (.inr (.inr (.inl ⟨rfl, rfl, rfl, h.symm⟩))))

/-- The stage that follows a stage (R206). -/
def stageSucc : Instr → BitVec 6
  | .load => stagePc1
  | .pc1 => stageKs 0
  | .ks i => ksSucc i
  | .ip => stageRnd 0
  | .rnd i => rndSucc i
  | _ => stageIdle

/-- What the execution of a stage does to the sequencing, the host's side and the buffers. -/
theorem exec_stage_of_busy {i : Instr} {n : Nat} {s : State} (hi : stagePlace i = some n)
    (hb : s.busy = true) :
    ∃ t, exec i s = .next t ∧ t.stage = stageSucc i ∧ t.busy = decide (i ≠ .fp) ∧
      t.valid = (s.valid || decide (i = .fp)) ∧ t.tables = s.tables ∧ t.pt = s.pt ∧ t.key = s.key ∧
      t.fatal = s.fatal ∧ t.sched = s.sched ∧ t.program = s.program ∧ t.response = s.response ∧
      t.inReset = s.inReset := by
  cases i with
  | load => exact ⟨_, rfl, by simp [State.engineStep_of_busy hb, loadEffect, stageSucc, hb]⟩
  | pc1 => exact ⟨_, rfl, by
    rw [State.engineStep_of_busy hb]; simp [pc1Effect, stageSucc, hb]⟩
  | ks i => exact ⟨_, rfl, by simp [State.engineStep_of_busy hb, ksEffect, stageSucc, hb]⟩
  | ip => exact ⟨_, rfl, by simp [State.engineStep_of_busy hb, ipEffect, stageSucc, hb]⟩
  | rnd i => exact ⟨_, rfl, by simp [State.engineStep_of_busy hb, rndEffect, stageSucc, hb]⟩
  | fp => exact ⟨_, rfl, by simp [State.engineStep_of_busy hb, fpEffect, stageSucc]⟩
  | _ => simp [stagePlace] at hi

/-! ### The window in the host's address space -/

/-- An offset's host address falls on that offset (R60). -/
theorem windowOffset_hostAddress (off : Offset) : windowOffset? (hostAddress off) = some off := by
  have : off.toNat < 4096 := off.isLt
  simp [windowOffset?, hostAddress, this]

/-- `BASE` is a multiple of 4096 (R8). -/
theorem base_aligned : Config.base % 4096 = 0 := by
  unfold Config.base; omega

end Sys2Proof.Machine
end

