-- ==== Sys2Proof/Tests/Slice0.lean ====
section
/-! SUPPORT. Tests: ill-formed terms are refused, written-out words decode, single steps give the
values of spec/95_test_vectors.md, and each statement's hypotheses can be met. -/

open Sys2Proof Sys2Proof.Machine Sys2Proof.Statements

namespace Sys2Proof.Tests

set_option maxRecDepth 4000

/-! ### Ill-formed terms (R66, R91) -/

theorem test_wf_refuses_misaligned_rd : (Instr.rd 0x102).wellFormed = false := by decide
theorem test_wf_refuses_misaligned_ignored : (Instr.wrIgnored 0x141 0).wellFormed = false := by decide
theorem test_wf_refuses_port_as_ignored : (Instr.wrIgnored 0x004 0).wellFormed = false := by decide
theorem test_wf_refuses_aligned_bus_error :
    (Instr.busErrorOff0 ⟨0x100, 4, .read⟩).wellFormed = false := by decide
theorem test_wf_refuses_bus_error_of_other_row :
    (Instr.busErrorOff1 ⟨0x003, 4, .read⟩).wellFormed = false := by decide
theorem test_wf_refuses_bus_error_of_other_size :
    (Instr.busErrorOff1 ⟨0x002, 2, .read⟩).wellFormed = false := by decide

/-! ### Decoding: words written out from R91, R93, R97 -/

theorem test_decode_rd : decodeTableWord 16 0b0_0001_0100_0000 = some (.rd 0x140) := by decide
theorem test_decode_wrCtrl : decodeTableWord 16 0b1_0000_0000_0100 = some (.wrCtrl 0) := by decide
theorem test_decode_wrPtChar : decodeTableWord 16 0b1_0000_0001_0000 = some (.wrPtChar 0) := by decide
theorem test_decode_wrKeyChar : decodeTableWord 16 0b1_0000_0001_0100 = some (.wrKeyChar 0) := by decide
theorem test_decode_wrIgnored :
    decodeTableWord 16 0b1_0001_0100_0000 = some (.wrIgnored 0x140 0) := by decide
theorem test_decode_busErrorOff0 :
    decodeTableWord 16 0b1_0000_0000_0111 = some (.busErrorOff0 ⟨0x007, 4, .write 0⟩) := by decide
theorem test_decode_busErrorOff1 :
    decodeTableWord 16 0b1_0000_0000_0110 = some (.busErrorOff1 ⟨0x006, 4, .write 0⟩) := by decide
theorem test_decode_short_access :
    decode (.hbus ⟨0x004, 1, .write 4⟩) = .busErrorOff0 ⟨0x004, 1, .write 4⟩ := by decide
theorem test_decode_nop : decodeTableWord 32 0b0000 = some .nop := by decide
theorem test_decode_clrPt : decodeTableWord 32 0b0001 = some .clrPt := by decide
theorem test_decode_clrKey : decodeTableWord 32 0b0010 = some .clrKey := by decide
theorem test_decode_clrIn : decodeTableWord 32 0b0011 = some .clrIn := by decide
/-- `0xFFFFFFF4` is `START`: bits 31:4 are ignored (R242's example). -/
theorem test_decode_start : decodeTableWord 32 0xFFFFFFF4 = some .start := by decide
theorem test_decode_ack : decodeTableWord 32 0b0101 = some .ack := by decide
theorem test_decode_cmdReserved6to7 : decodeTableWord 32 0b0111 = some (.cmdReserved6to7 1) := by decide
theorem test_decode_cmdReserved8toF : decodeTableWord 32 0b1010 = some (.cmdReserved8toF 2) := by decide
theorem test_decode_idle : decodeTableWord 8 0b000000 = some .idle := by decide
theorem test_decode_load : decodeTableWord 8 0b000001 = some .load := by decide
theorem test_decode_pc1 : decodeTableWord 8 0b000010 = some .pc1 := by decide
theorem test_decode_ip : decodeTableWord 8 0b000011 = some .ip := by decide
theorem test_decode_fp : decodeTableWord 8 0b000100 = some .fp := by decide
/-- `0x1F` is `KS(16)`, `0x20` is `RND(1)` (spec/95_test_vectors.md 1.4). -/
theorem test_decode_ks : decodeTableWord 8 0b011111 = some (.ks 15) := by decide
theorem test_decode_rnd : decodeTableWord 8 0b100000 = some (.rnd 0) := by decide
theorem test_decode_stageReserved05 : decodeTableWord 8 0b000101 = some .stageReserved05 := by decide
theorem test_decode_stageReserved06to07 :
    decodeTableWord 8 0b000110 = some (.stageReserved06to07 0) := by decide
theorem test_decode_stageReserved08to0F :
    decodeTableWord 8 0b001111 = some (.stageReserved08to0F 7) := by decide
theorem test_decode_stageReserved30to3F :
    decodeTableWord 8 0b111010 = some (.stageReserved30to3F 10) := by decide
theorem test_decode_refuses_stray_bits :
    decodeTable 8 0b1000001 = .error (.strayBits 8 0b1000001) := by rfl
theorem test_decode_refuses_other_widths : decodeTable 24 4 = .error (.noSuchFormat 24) := by rfl

/-! ### Single steps, with the values of spec/95_test_vectors.md -/

/-- One field of the next state, if the outcome is one. -/
def nextField {α : Type} (o : Host.Outcome State Fault Refusal) (f : State → α) : Option α :=
  match o with
  | .next s => some (f s)
  | .fault _ | .refused _ => none

/-- Busy at a stage, with the block and key of spec/95_test_vectors.md section 1 loaded. -/
def busyAt (stage : BitVec 6) : State :=
  { State.reset with
    busy := true
    stage := stage
    pt := ⟨0x0123456789ABCDEF, 16, false, false⟩
    key := ⟨0x133457799BBCDFF1, 16, false, false⟩
    trace := [(0x120, 0x01234567), (0x124, 0x89ABCDEF), (0x128, 0x13345779), (0x12C, 0x9BBCDFF1),
      (0xC00, 0x00001B02), (0xC04, 0xEFFC7072)] }

/-- Busy at `LOAD`, nothing yet stepped: the "busy at LOAD" of section 3.7. -/
def busyAtLoad : State := { State.reset with busy := true, stage := 0x01 }

theorem test_reset_status : State.reset.statusWord = 0x00000000 := by decide
theorem test_reset_instat : State.reset.instatWord = 0x00000000 := by decide

/-- H1. -/
theorem test_rd_id : nextField (exec (.rd 0x000) .reset) State.response = some (.read 0x44455331) := by
  decide
/-- R62's example: the subkey `0x1B02EFFC7072` reads `0x00001B02` at `0xC00`. -/
theorem test_rd_subkey :
    nextField (exec (.rd 0xC00) (busyAt 0x20)) State.response = some (.read 0x00001B02) := by decide
/-- H17. -/
theorem test_wrCtrl_start :
    nextField (exec (.wrCtrl 0xFFFFFFF4) .reset) State.statusWord = some 0x00000101 := by decide
/-- H2. -/
theorem test_wrPtChar_digit :
    nextField (exec (.wrPtChar 0x61) .reset) (fun s => (s.instatWord, s.pt.buf)) =
      some (0x00000001, 0xA000000000000000) := by decide
/-- H3: `'G'`. -/
theorem test_wrPtChar_malformed :
    nextField (exec (.wrPtChar 0x47) .reset) State.instatWord = some 0x00000040 := by decide
/-- Program 3: a seventeenth key digit sets `KEY_TRUNC`. -/
theorem test_wrKeyChar_truncated :
    nextField (exec (.wrKeyChar 0x41)
      { State.reset with pt := ⟨0xABCD000000000000, 4, false, false⟩,
                         key := ⟨0x133457799BBCDFF1, 16, false, false⟩ })
      (fun s => (s.instatWord, s.key.buf)) = some (0x00003004, 0x133457799BBCDFF1) := by decide
/-- R238 with `n = 15`: the last place is the low nibble. -/
theorem test_wrKeyChar_last_place :
    nextField (exec (.wrKeyChar 0x66) { State.reset with key := ⟨0x133457799BBCDFF0, 15, false, false⟩ })
      (fun s => (s.key.buf, s.key.cnt)) = some (0x133457799BBCDFFF, 16) := by decide
/-- H27. -/
theorem test_wrIgnored_trace :
    nextField (exec (.wrIgnored 0x120 0) (busyAt 0x20)) (fun s => Memory.get s.trace 0x120) =
      some (some 0x01234567) := by decide
/-- H31: a short `START` is no `START`. -/
theorem test_busErrorOff0_short_start :
    nextField (exec (decode (.hbus ⟨0x004, 1, .write 4⟩)) .reset) (fun s => (s.statusWord, s.response)) =
      some (0x00000000, .writeError) := by decide
/-- H30. -/
theorem test_busErrorOff1_read :
    nextField (exec (decode (.hbus ⟨0x002, 4, .read⟩)) .reset) State.response = some (.readError 0) := by
  decide
/-- H22. -/
theorem test_nop_busy : nextField (exec .nop busyAtLoad) State.statusWord = some 0x00000101 := by decide
/-- H10. -/
theorem test_clrPt :
    nextField (exec .clrPt { State.reset with pt := ⟨0x1200000000000000, 2, false, true⟩,
                                              key := ⟨0x1111111111111111, 16, false, false⟩ })
      State.instatWord = some 0x00001000 := by decide
/-- H11. -/
theorem test_clrKey :
    nextField (exec .clrKey { State.reset with pt := ⟨0x1234000000000000, 4, false, false⟩,
                                               key := ⟨0x1111111111111111, 16, true, false⟩ })
      State.instatWord = some 0x00000004 := by decide
/-- H20. -/
theorem test_clrIn_busy : nextField (exec .clrIn busyAtLoad) State.statusWord = some 0x00000109 := by
  decide
/-- H13. -/
theorem test_start : nextField (exec .start .reset) State.statusWord = some 0x00000101 := by decide
/-- H15. -/
theorem test_start_malformed :
    nextField (exec .start { State.reset with valid := true, pt := ⟨0, 0, false, true⟩ })
      State.statusWord = some 0x00000004 := by decide
/-- H23. -/
theorem test_ack_busy :
    nextField (exec .ack { busyAtLoad with errBusy := true, errCmd := true }) State.statusWord =
      some 0x00000101 := by decide
/-- H16. -/
theorem test_cmdReserved6to7 :
    nextField (exec (.cmdReserved6to7 0) .reset) State.statusWord = some 0x00000010 := by decide
/-- H24. -/
theorem test_cmdReserved8toF_busy :
    nextField (exec (.cmdReserved8toF 7) busyAtLoad) State.statusWord = some 0x00000111 := by decide
theorem test_idle : nextField (exec .idle .reset) State.statusWord = some 0x00000000 := by decide
/-- Section 1.1: `T.PT_HEX`'s first word, and 1.4: the status after one step. -/
theorem test_load :
    nextField (exec .load (busyAt 0x01)) (fun s => (Memory.get s.trace 0x100, s.statusWord)) =
      some (some 0x30313233, 0x00000201) := by decide
/-- R160's example. -/
theorem test_pc1 :
    nextField (exec .pc1 (busyAt 0x02)) (fun s => (s.c, s.d, Memory.get s.trace 0x130)) =
      some (0xF0CCAAF, 0x556678F, some 0x00F0CCAA) := by decide
/-- R161's example. -/
theorem test_ks :
    nextField (exec (.ks 0) { busyAt 0x10 with c := 0xF0CCAAF, d := 0x556678F })
      (fun s => (s.c, s.d, Memory.get s.trace 0x828, Memory.get s.trace 0xC04)) =
      some (0xE19955F, 0xAACCF1E, some 0x00001B02, some 0xEFFC7072) := by decide
/-- R203's example. -/
theorem test_ip :
    nextField (exec .ip (busyAt 0x03)) (fun s => (s.l, s.r, s.stage)) =
      some (0xCC00CCFF, 0xF0AAF0AA, 0x20) := by decide
/-- R187's example. -/
theorem test_rnd :
    nextField (exec (.rnd 0) { busyAt 0x20 with l := 0xCC00CCFF, r := 0xF0AAF0AA })
      (fun s => (s.l, s.r, Memory.get s.trace 0x42C, Memory.get s.trace 0x43C)) =
      some (0xF0AAF0AA, 0xEF4A6544, some 0x5C82B597, some 0xEF4A6544) := by decide
/-- R204's example, and 1.4: the status after the last step. -/
theorem test_fp :
    nextField (exec .fp { busyAt 0x04 with l := 0x43423234, r := 0x0A4CD995 })
      (fun s => (Memory.get s.trace 0x140, Memory.get s.trace 0x154, s.statusWord)) =
      some (some 0x85E81354, some 0x42343035, 0x00000002) := by decide
theorem test_stageReserved_faults : step { busyAt 0x05 with sched := [.engine] } = .fault .reservedStage := by
  rfl

/-! ### Primitives (spec/95_test_vectors.md 3.1 to 3.3, 3.8) -/

theorem test_hexVal_alphabet :
    [0x30, 0x39, 0x41, 0x66, 0x61].map hexVal? = [some 0, some 9, some 0xA, some 0xF, some 0xA] ∧
    [0x2F, 0x3A, 0x40, 0x47, 0x60, 0x67, 0x20, 0x00, 0x80, 0xC1, 0xFF].all (fun c => !isHex c) = true := by
  decide
theorem test_permute_probe : permute (0x80000000 : BitVec 32) desE = (0x400000000001 : BitVec 48) := by
  decide
theorem test_rotl28_wraps : rotl28 0x8000001 2 = 0x0000006 := by decide
theorem test_substitute : substitute desTables 0x6117BA866527 = 0x5C82B597 := by decide
theorem test_tables_range :
    ({ desTables with shifts := desShifts.set 15 28 } : Tables).wellFormed = false ∧
    ({ desTables with shifts := desShifts.set 15 27 } : Tables).wellFormed = true ∧
    ({ desTables with e := desE.set 0 33 } : Tables).wellFormed = false := by decide

/-! ### The hypotheses of the statements can be met -/

theorem test_witness_DecodeOfEncode : ∃ i : Instr, i.wellFormed = true := ⟨.rd 0xFFC, by decide⟩

theorem test_witness_StepRuns_access :
    ∃ (s : State) (a : BusAccess) (ops : List HostOp), s.inReset = false ∧ s.turn = .host ∧
      s.program = .access a :: ops :=
  ⟨{ State.reset with program := [.rd 0xFFC] }, ⟨0xFFC, 4, .read⟩, [], rfl, rfl, rfl⟩
theorem test_witness_StepRuns_poll :
    ∃ (s t : State) (off : Offset) (mask val : Word) (ops : List HostOp),
      s.inReset = false ∧ s.turn = .host ∧ s.program = .poll off mask val :: ops ∧
      exec (decodeHbus ⟨off, 4, .read⟩) { s with sched := s.sched.tail } = .next t :=
  ⟨{ State.reset with program := [.wait] }, _, 0x008, 1, 0, [], rfl, rfl, rfl, rfl⟩
theorem test_witness_StepRuns_turns :
    (∃ s : State, s.turn = .host ∧ s.program = []) ∧
    (∃ s : State, s.inReset = false ∧ s.turn = .engine ∧ s.busy = true) ∧
    (∃ s : State, s.turn = .engine ∧ s.busy = false) ∧
    (∃ s : State, s.inReset = true ∧ s.turn = .host) ∧
    (∃ s : State, s.inReset = true ∧ s.turn = .engine) ∧
    (∃ s : State, s.turn = .assertReset) ∧
    (∃ s : State, s.inReset = true ∧ s.turn = .releaseReset) :=
  ⟨⟨.reset, rfl, rfl⟩, ⟨busyAtLoad, rfl, rfl, rfl⟩,
    ⟨{ State.reset with sched := [.engine] }, rfl, rfl⟩,
    ⟨{ State.reset with inReset := true, sched := [.host] }, rfl, rfl⟩,
    ⟨{ busyAtLoad with inReset := true, sched := [.engine] }, rfl, rfl⟩,
    ⟨{ State.reset with sched := [.assertReset] }, rfl⟩,
    ⟨{ State.reset with inReset := true }, rfl, rfl⟩⟩
/-- R290: a `START` is not accepted while reset is asserted, and stays in the host's program. -/
theorem test_reset_held_access :
    nextField (step { State.reset with inReset := true, program := [.cmd 4], sched := [.host] })
      (fun s => (s.statusWord, s.response, s.program)) =
      some (0x00000000, .none, [HostOp.cmd 4]) := by decide
/-- R290, R292: the end of a reset in the middle of a run. -/
theorem test_reset_released :
    nextField (step { busyAt 0x20 with inReset := true, valid := true, sched := [.releaseReset] })
      (fun s => (s.statusWord, s.instatWord, Memory.get s.trace 0x120, s.inReset)) =
      some (0x00000000, 0x00000000, none, false) := by decide
theorem test_witness_PlacedInstruction :
    decodeTableWord 16 0x1FFC = some (.wrIgnored 0xFFC 0) ∧
    decodeTableWord 32 0xFFFFFFFF = some (.cmdReserved8toF 7) ∧ decodeTableWord 8 0 = some .idle ∧
    decodeTableWord 8 0x3F = some (.stageReserved30to3F 15) := by decide
theorem test_witness_ResetEvaluatesFatal :
    ∃ s : State, s.inReset = true ∧ s.turn = .releaseReset ∧ s.busy = true :=
  ⟨{ busyAtLoad with inReset := true, sched := [.releaseReset] }, rfl, rfl, rfl⟩

/-- The conditions of the command and character statements: each of `FATAL`, busy, idle. -/
theorem test_witness_fatal : ∃ s : State, s.fatal = true := ⟨{ State.reset with fatal := true }, rfl⟩
theorem test_witness_busy_not_fatal : ∃ s : State, s.fatal = false ∧ s.busy = true :=
  ⟨busyAtLoad, by decide, rfl⟩
theorem test_witness_idle_not_fatal :
    ∃ s : State, s.fatal = false ∧ s.busy = false ∧ s.pt.mal = false ∧ s.key.mal = false :=
  ⟨.reset, by decide, rfl, rfl, rfl⟩
theorem test_witness_malformed_each_field :
    (∃ s : State, s.fatal = false ∧ s.busy = false ∧ s.pt.mal = true) ∧
    (∃ s : State, s.fatal = false ∧ s.busy = false ∧ s.key.mal = true) :=
  ⟨⟨{ State.reset with pt := ⟨0, 0, false, true⟩ }, by decide, rfl, rfl⟩,
    ⟨{ State.reset with key := ⟨0, 0, false, true⟩ }, by decide, rfl, rfl⟩⟩
theorem test_witness_ControlWrite_same_code :
    (0xFFFFFFF4 : Word).extractLsb' 0 4 = (0x00000004 : Word).extractLsb' 0 4 := by decide
/-- Leaving `FATAL` needs a state with `FATAL = 1` and well-formed tables, which no run reaches. -/
theorem test_witness_Fatal_left_by_reset :
    ∃ s t : State, s.fatal = true ∧ step s = .next t ∧ t.fatal = false :=
  ⟨{ State.reset with fatal := true, inReset := true, sched := [.releaseReset] }, _, rfl, rfl,
    by decide⟩
/-- The three cases of `CharTaken`, at the counts 0, 15 and 16. -/
theorem test_witness_CharTaken :
    hexVal? ((0x00000046 : Word).extractLsb' 0 8) = some 0xF ∧ (0 : BitVec 5).toNat < 16 ∧
    (15 : BitVec 5).toNat < 16 ∧ 16 ≤ (16 : BitVec 5).toNat ∧
    hexVal? ((0x00000080 : Word).extractLsb' 0 8) = none := by decide

/-- Each clause of `WordReadReturnsTheRegister` at the ends of its range. -/
theorem test_witness_WordRead :
    (0x000 : Offset).toNat % 4 = 0 ∧
    (0x100 : Offset).toNat = TField.ptHex.offset + 4 * 0 ∧
    (0x154 : Offset).toNat = TField.ctHex.offset + 4 * 3 ∧
    (0x7FC : Offset).toNat = (TField.rnd .newr 15).offset + 4 * 1 ∧
    (0xC7C : Offset).toNat = (TField.k 15).offset + 4 * 1 := by decide
theorem test_witness_WordRead_reserved :
    [0x018, 0x0FC, 0x158, 0x3FC, 0x830, 0x83C, 0xC80, 0xFFC].all (fun n => !isTraceOffset n) = true := by
  decide
theorem test_witness_WordRead_misaligned :
    (0x001 : Offset).toNat % 4 ≠ 0 ∧ (0xFFE : Offset).toNat % 4 ≠ 0 := by
  decide
theorem test_witness_WordRead_written :
    (Memory.get (busyAt 0x20).trace (0xC00 : Offset).toNat).isSome = true := by decide
theorem test_witness_RepeatedRead :
    ∃ s t : State, (isTraceOffset (0xC00 : Offset).toNat = true →
      (Memory.get s.trace (0xC00 : Offset).toNat).isSome = true) ∧ exec (.rd 0xC00) s = .next t :=
  ⟨busyAt 0x20, _, by decide, rfl⟩
theorem test_witness_OtherWrites :
    (0xFFC : Offset).toNat % 4 = 0 ∧ (0xFFC : Offset).toNat ≠ 0x004 ∧ (0xFFC : Offset).toNat ≠ 0x010 ∧
      (0xFFC : Offset).toNat ≠ 0x014 := by decide
theorem test_witness_OtherAccesses :
    (∃ a : BusAccess, a.size ≠ 4) ∧ (∃ a : BusAccess, a.size = 4 ∧ a.off.toNat % 4 ≠ 0) :=
  ⟨⟨⟨0x004, 1, .read⟩, by decide⟩, ⟨⟨0xFFF, 4, .read⟩, by decide⟩⟩
theorem test_witness_WriteChecks :
    ∃ (a : BusAccess) (data : Word) (s : State), a.kind = .write data ∧ a.size = 4 ∧
      a.off.toNat = 0x004 ∧ s.fatal = false ∧ data.toNat % 16 = 4 ∧ s.busy = true ∧ s.pt.mal = true :=
  ⟨⟨0x004, 4, .write 0xFFFFFFF4⟩, _, { busyAtLoad with pt := ⟨0, 0, false, true⟩ }, rfl, rfl, rfl,
    by decide, by decide, rfl, rfl⟩
/-- The codes at the ends of the ranges of commands, and the offsets beside the ports. -/
theorem test_witness_WriteChecks_ranges :
    (0xFFFFFFF0 : Word).toNat % 16 = 0 ∧ (0x1 : Word).toNat % 16 = 1 ∧ (0x5 : Word).toNat % 16 = 5 ∧
    (0x6 : Word).toNat % 16 = 6 ∧ (0xFFFFFFFF : Word).toNat % 16 = 15 ∧
    (0x010 : Offset).toNat % 4 = 0 ∧ (0x014 : Offset).toNat % 4 = 0 ∧
    (0x018 : Offset).toNat % 4 = 0 ∧ (0xFFC : Offset).toNat % 4 = 0 := by decide
/-- H24 and R243: a reserved code while busy is `ERR_CMD`, not `ERR_BUSY`. -/
theorem test_decode_before_busy :
    nextField (exec (decodeHbus ⟨0x004, 4, .write 0x6⟩) busyAtLoad) State.statusWord =
      some 0x00000111 := by decide
theorem test_witness_Tile :
    isTraceOffset 0xC7C = true ∧ 1 < (TField.k 15).words ∧ 0xC7C = (TField.k 15).offset + 4 * 1 := by
  decide
theorem test_witness_SlotReadsBack : (TField.k 0).words = 2 ∧ 48 ≤ 64 ∧ 64 ≤ 64 := by decide

theorem test_witness_stages : ∃ s : State, s.busy = true ∧ SlotWritten s.trace .keyBin ∧
    SlotWritten s.trace .ptBin ∧ SlotWritten s.trace (.k 0) :=
  ⟨busyAt 0x02, rfl, ⟨by decide, by decide⟩, ⟨by decide, by decide⟩, ⟨by decide, by decide⟩⟩
theorem test_witness_IdleEngine : ∃ s : State, s.busy = false ∧ s.turn = .engine :=
  ⟨{ State.reset with sched := [.engine] }, rfl, rfl⟩
/-- The three kinds of code, at both ends of each range. -/
theorem test_witness_ReservedStage :
    ∃ s : BitVec 6 → State, (∀ c, (s c).inReset = false ∧ (s c).busy = true ∧
        (s c).turn = .engine ∧ (s c).stage = c) ∧
      (0x05 : BitVec 6).toNat = 0x05 ∧ (0x0F : BitVec 6).toNat = 0x0F ∧
      (0x30 : BitVec 6).toNat = 0x30 ∧ 0x30 ≤ (0x3F : BitVec 6).toNat :=
  ⟨fun c => { busyAt c with sched := [.engine] }, fun _ => ⟨rfl, rfl, rfl, rfl⟩, by decide⟩
theorem test_witness_Sequence :
    (∃ s : State, s.inReset = false ∧ s.busy = true ∧ s.turn = .engine ∧
      runSequence[0]? = some s.stage) ∧
    (∃ s : State, s.inReset = false ∧ s.busy = true ∧ s.turn = .engine ∧
      runSequence[35]? = some s.stage) :=
  ⟨⟨busyAt 0x01, rfl, rfl, rfl, rfl⟩, ⟨busyAt 0x04, rfl, rfl, rfl, rfl⟩⟩
theorem test_witness_StageChanges :
    (∃ s t : State, step s = .next t ∧ t.stage ≠ s.stage ∧ s.turn = .engine) ∧
    (∃ s t : State, step s = .next t ∧ t.stage ≠ s.stage ∧ s.turn = .host) ∧
    (∃ s t : State, step s = .next t ∧ t.stage ≠ s.stage ∧ s.turn = .releaseReset) :=
  ⟨⟨busyAt 0x01, _, rfl, by decide, rfl⟩,
    ⟨{ State.reset with program := [.cmd 4] }, _, rfl, by decide, rfl⟩,
    ⟨{ busyAtLoad with inReset := true, sched := [.releaseReset] }, _, rfl, by decide, rfl⟩⟩
theorem test_witness_whole_machine :
    (∃ s t : State, step s = .next t ∧ s.turn = .host) ∧
    (∃ s t : State, step s = .next t ∧ s.turn = .engine ∧ s.busy = false) ∧
    (∃ s t : State, step s = .next t ∧ s.turn = .releaseReset ∧ s.inReset = true) :=
  ⟨⟨.reset, _, rfl, rfl⟩, ⟨{ State.reset with sched := [.engine] }, _, rfl, rfl, rfl⟩,
    ⟨{ State.reset with inReset := true }, _, rfl, rfl, rfl⟩⟩
theorem test_witness_HostCannotDisturb :
    ∃ s t : State, s.busy = true ∧ s.turn = .host ∧ step s = .next t ∧ t.errBusy = true :=
  ⟨{ busyAtLoad with program := [.cmd 3], sched := [.host] }, _, rfl, rfl, rfl, by decide⟩
/-- Two engines in the same place of the same run that differ in their status bits and hosts. -/
theorem test_witness_EngineStepDepends :
    ∃ s s' t t' : State, s.busy = true ∧ s'.busy = true ∧ s.turn = .engine ∧ s'.turn = .engine ∧
      s.tables = s'.tables ∧ s.c = s'.c ∧ s.d = s'.d ∧ s.l = s'.l ∧ s.r = s'.r ∧
      s.pt.buf = s'.pt.buf ∧ s.key.buf = s'.key.buf ∧ s.stage = s'.stage ∧ s.trace = s'.trace ∧
      s.inReset = s'.inReset ∧ s.draws = s'.draws ∧ step s = .next t ∧ step s' = .next t' ∧ s ≠ s' :=
  ⟨busyAt 0x01, { busyAt 0x01 with errBusy := true, program := [.rd 0] }, _, _, rfl, rfl, rfl, rfl,
    rfl, rfl, rfl, rfl, rfl, rfl, rfl, rfl, rfl, rfl, rfl, rfl, rfl,
    fun h => absurd (congrArg State.errBusy h) (by decide)⟩

/-! ### Reachable witnesses -/

/-- Reset, with one `START` and then the engine's turns. -/
def started : State :=
  { State.reset with program := [.cmd 4], sched := .host :: List.replicate 36 .engine }

theorem started_reachable : Reachable started := .reset desTables _ _

/-- The fixed sequence, as the successor function gives it. -/
theorem sequence_succ : ∀ n < 35, ∀ c, runSequence[n]? = some c →
    (stagePlace (decodeStage c)).isSome = true ∧ decodeStage c ≠ .fp ∧
      runSequence[n + 1]? = some (stageSucc (decodeStage c)) := by decide

/-- A run in progress is reachable at each of its 36 stages. -/
theorem run_reachable : ∀ n, n ≤ 35 → ∃ s : State, Reachable s ∧ s.inReset = false ∧ s.busy = true ∧
    s.sched = List.replicate (36 - n) .engine ∧ runSequence[n]? = some s.stage := by
  intro n
  induction n with
  | zero =>
    exact fun _ => ⟨_, .step started_reachable (t := { started with
      errMalformed := false, valid := false, busy := true, stage := 0x01, response := .written,
      program := [], sched := List.replicate 36 .engine }) rfl, rfl, rfl, rfl, rfl⟩
  | succ n ih =>
    intro hn
    obtain ⟨s, hr, hres, hb, hs, hst⟩ := ih (by omega)
    obtain ⟨hsome, hfp, hsucc⟩ := sequence_succ n (by omega) _ hst
    obtain ⟨k, hk⟩ := Option.isSome_iff_exists.1 hsome
    have hs' : s.sched = .engine :: List.replicate (35 - n) .engine := by
      rw [hs, show 36 - n = (35 - n) + 1 by omega, List.replicate_succ]
    have hb' : s.passTurn.busy = true := hb
    have hres' : s.passTurn.inReset = false := hres
    obtain ⟨t, ht, hstage, hbusy, _, _, _, _, _, hsched, _, _, htres⟩ := exec_stage_of_busy hk hb'
    have hstep : step s = .next t := by
      rw [← ht]
      simp [step, State.turn_cons hs', State.engineTurn_of_not_held hres', State.fetchStage_of_busy hb']
    refine ⟨t, .step hr hstep, htres.trans hres', by simp [hbusy, hfp], ?_, by rw [hsucc, hstage]⟩
    rw [hsched, State.passTurn_sched, hs', List.tail_cons]
    congr 1; omega

/-- The hypotheses of `CompletedRunHoldsItsTrace` and, taken twice, of `RunsAreDeterministic`. -/
theorem test_witness_last_stage : ∃ s t : State, Reachable s ∧ s.inReset = false ∧ s.busy = true ∧
    s.stage = 0x04 ∧ s.turn = .engine ∧ step s = .next t ∧ Reachable t ∧ t.valid = true := by
  obtain ⟨s, hr, hres, hb, hs, hst⟩ := run_reachable 35 (by omega)
  have h4 : s.stage = 0x04 := by simpa [runSequence, eq_comm] using hst
  have hturn : s.turn = .engine := State.turn_cons (ts := []) hs
  have hb' : s.passTurn.busy = true := hb
  have hres' : s.passTurn.inReset = false := hres
  obtain ⟨t, ht, _, _, hv, _⟩ := exec_stage_of_busy (i := .fp) (n := 35) rfl hb'
  have hstep : step s = .next t := by
    rw [← ht]
    simp only [step, hturn, State.engineTurn_of_not_held hres', State.fetchStage_of_busy hb',
      State.passTurn_stage, h4]
    rfl
  exact ⟨s, t, hr, hres, hb, h4, hturn, hstep, .step hr hstep, by simp [hv]⟩

theorem test_witness_RunTakes :
    ∃ s t : State, s.busy = false ∧ exec .start s = .next t ∧ t.busy = true :=
  ⟨.reset, _, rfl, rfl, by decide⟩

theorem inputField_empty_ok : InputField.empty.Ok :=
  ⟨by decide, fun k _ _ => by simp [InputField.empty, nibble]⟩

/-- A state of a run, and the reset state, meet the invariants. -/
theorem test_witness_Inv : ∃ s t : State, s.Inv ∧ s.TraceOk ∧ s.inReset = false ∧ s.busy = true ∧
    s.turn = .engine ∧ step s = .next t :=
  ⟨busyAtLoad, _,
    { busy_iff_stage := by decide
      stage_legal := by decide
      fatal_eq := rfl
      fatal_quiet := fun h => absurd h (by decide)
      busy_not_valid := fun _ => rfl
      pt_ok := inputField_empty_ok
      key_ok := inputField_empty_ok
      trace_wf := rfl
      trace_offsets := fun _ _ h => absurd h (by simp [busyAtLoad, State.reset, State.resetWith]) },
    { done := fun _ f h => absurd h (by simp [State.stagesDone, busyAtLoad, decodeStage, stagePlace])
      keyRegs := fun _ h => absurd h (by decide)
      halves := fun _ h => absurd h (by decide)
      valid := fun h => absurd h (by decide) },
    rfl, rfl, rfl, rfl⟩
theorem test_witness_Inv_reset : ∃ s : State, s.Inv ∧ s.busy = false :=
  ⟨.reset,
    { busy_iff_stage := by decide
      stage_legal := by decide
      fatal_eq := rfl
      fatal_quiet := fun h => absurd h (by decide)
      busy_not_valid := fun h => absurd h (by decide)
      pt_ok := inputField_empty_ok
      key_ok := inputField_empty_ok
      trace_wf := rfl
      trace_offsets := fun _ _ h => absurd h (by simp [State.reset, State.resetWith]) },
    rfl⟩
theorem test_witness_NeverStops : Reachable .reset := .reset desTables [] []

/-- An interleaving in which the engine moves before `START` and the host polls between its steps. -/
def mixedSched : List Turn :=
  .engine :: List.replicate 6 .host ++
    (.engine :: .host :: .host :: List.replicate 35 .engine) ++ [.host, .engine, .host]

theorem test_witness_HostProgram : ∃ (s : State) (pt key : List Char8), s.inReset = false ∧
    s.busy = false ∧ s.fatal = false ∧ pt.all isHex = true ∧ key.all isHex = true ∧
    s.program = HostOp.bootRun pt key ∧ (∀ m ∈ s.sched, m = .host ∨ m = .engine) ∧
    ∃ before during after : List Turn, s.sched = before ++ during ++ after ∧
      pt.length + key.length + 4 ≤ before.count .host ∧ 36 ≤ during.count .engine ∧
      2 ≤ after.count .host :=
  ⟨{ State.reset with program := HostOp.bootRun [0x41] [0x66], sched := mixedSched },
    [0x41], [0x66], rfl, rfl, by decide, by decide, by decide, rfl, by decide,
    .engine :: List.replicate 6 .host, .engine :: .host :: .host :: List.replicate 35 .engine,
    [.host, .engine, .host], rfl, by decide, by decide, by decide⟩
theorem test_witness_Malformed : ∃ (s : State) (pt key : List Char8), s.inReset = false ∧
    s.busy = false ∧ s.fatal = false ∧ pt.any (fun ch => !isHex ch) = true ∧
    s.program = HostOp.cmd 3 :: (HostOp.pts pt ++ HostOp.keys key ++ [HostOp.cmd 4]) ∧
    s.sched = List.replicate (pt.length + key.length + 2) .host :=
  ⟨{ State.reset with
      program := HostOp.cmd 3 :: (HostOp.pts [0x47] ++ HostOp.keys [] ++ [HostOp.cmd 4])
      sched := List.replicate 3 .host },
    [0x47], [], rfl, rfl, by decide, by decide, rfl, rfl⟩
/-- The rotation amounts and positions at the ends of their ranges. -/
theorem test_witness_Rotation : rotl28 0x8000000 27 = 0x4000000 ∧ rotl28 0x8000000 0 = 0x8000000 := by
  decide
theorem test_witness_HexConversion : [0x66, 0x30].all isHex = true ∧
    ([0x66, 0x30] : List Char8).map upper = [0x46, 0x30] := by decide
/-- Section 3.4: two keys that differ in every parity bit. -/
theorem test_witness_Parity :
    (0x133457799BBCDFF1 : BitVec 64) &&& 0xFEFEFEFEFEFEFEFE =
      (0x123556789ABDDEF0 : BitVec 64) &&& 0xFEFEFEFEFEFEFEFE := by decide

end Sys2Proof.Tests
end

/-! ### The functions of `EncryptBlock`, case by case (R205) -/

namespace Sys2Proof.Machine

/-- One round of `EncryptBlock`'s loop: the halves swap and the left one is combined with
`f(R, K)` (R186, R205). -/
theorem halves_succ (T : Tables) (p key : BitVec 64) (i : Fin 16) :
    halves T p key (i.val + 1) = ((halves T p key i.val).2,
      (round T (halves T p key i.val).1 (halves T p key i.val).2 (keyStep T key i).k).newr) := by
  simp [halves]

/-- Strings of hex digits are accepted (R205). -/
theorem encryptBlock_of_isHex (T : Tables) {pt key : List Char8} (hpt : pt.all isHex = true)
    (hkey : key.all isHex = true) :
    encryptBlock T pt key = .ok { encrypt T (hexBlock pt) (hexBlock key) with
      ptHex := normalText pt
      keyHex := normalText key } := by
  simp only [encryptBlock, hpt, hkey, Bool.and_self, if_true]

end Sys2Proof.Machine

/-! ### The reference test vector (R7; spec/95_test_vectors.md section 1)

The run is checked row by row against the spec's tables of subkeys and halves, along the recursion
of `halves`. -/

namespace Sys2Proof.KnownAnswer

open Sys2Proof.Machine

set_option maxRecDepth 4000

/-- `"0123456789ABCDEF"`. -/
def ptText : List Char8 :=
  [0x30, 0x31, 0x32, 0x33, 0x34, 0x35, 0x36, 0x37, 0x38, 0x39, 0x41, 0x42, 0x43, 0x44, 0x45, 0x46]

/-- `"133457799bbcdff1"`. -/
def keyText : List Char8 :=
  [0x31, 0x33, 0x33, 0x34, 0x35, 0x37, 0x37, 0x39, 0x39, 0x62, 0x62, 0x63, 0x64, 0x66, 0x66, 0x31]

/-- `T.PT_BIN` (1.1). -/
def ptBlock : BitVec 64 := 0x0123456789ABCDEF

/-- `T.KEY_BIN` (1.1). -/
def keyBlock : BitVec 64 := 0x133457799BBCDFF1

/-- `K_1` to `K_16` (1.2). -/
def subkeys : Vector (BitVec 48) 16 := #v[
  0x1B02EFFC7072, 0x79AED9DBC9E5, 0x55FC8A42CF99, 0x72ADD6DB351D,
  0x7CEC07EB53A8, 0x63A53E507B2F, 0xEC84B7F618BC, 0xF78A3AC13BFB,
  0xE0DBEBEDE781, 0xB1F347BA464F, 0x215FD3DED386, 0x7571F59467E9,
  0x97C5D1FABA41, 0x5F43B7F2E73A, 0xBF918D3D3F0A, 0xCB3D8B0E17F5]

/-- `L_0`, `R_0`, then `R_1` to `R_16`: entries `n` and `n + 1` are `L_n` and `R_n` (1.3). -/
def halfWords : Vector (BitVec 32) 18 := #v[
  0xCC00CCFF, 0xF0AAF0AA, 0xEF4A6544, 0xCC017709, 0xA25C0BF4, 0x77220045,
  0x8A4FA637, 0xE967CD69, 0x064ABA10, 0xD5694B90, 0x247CC67A, 0xB7D5D7B2,
  0xC5783C78, 0x75BD1858, 0x18C3155A, 0xC28C960D, 0x43423234, 0x0A4CD995]

theorem hexBlock_ptText : hexBlock ptText = ptBlock := by decide

/-- Lower-case digits have the values of the upper-case ones (R121). -/
theorem hexBlock_keyText : hexBlock keyText = keyBlock := by decide

theorem keyStep_k (i : Fin 16) : (keyStep desTables keyBlock i).k = subkeys[i] := by
  revert i
  decide

theorem halves_zero : halves desTables ptBlock keyBlock 0 = (halfWords[0], halfWords[1]) := by decide

theorem round_newr (i : Fin 16) :
    (round desTables halfWords[i.val] halfWords[i.val + 1] subkeys[i]).newr =
      halfWords[i.val + 2] := by
  revert i
  decide

theorem halves_eq (n : Nat) (hn : n ≤ 16) :
    halves desTables ptBlock keyBlock n = (halfWords[n], halfWords[n + 1]) := by
  induction n with
  | zero => exact halves_zero
  | succ n ih => rw [halves_succ _ _ _ ⟨n, hn⟩, ih (by omega), keyStep_k, round_newr ⟨n, hn⟩]

/-- `FP` of the pre-output block `R_16 || L_16` (1.1; R204). -/
theorem cipherText_eq : cipherText desTables ptBlock keyBlock = 0x85E813540F0AB405 := by
  simp only [cipherText, halves_eq 16 (le_refl 16)]
  decide

end Sys2Proof.KnownAnswer

section

open Sys2Proof Sys2Proof.Machine Sys2Proof.KnownAnswer

/-- Settles O60: the ciphertext by the round-by-round run of the two blocks, the two strings by
`Normalize` and the upper-case form. -/
theorem knownAnswer : Obligations.KnownAnswer := by
  refine ⟨_, encryptBlock_of_isHex desTables (pt := ptText) (key := keyText) (by decide) (by decide),
    ?_, by decide, by decide⟩
  simp only [encrypt]
  rw [hexBlock_ptText, hexBlock_keyText, cipherText_eq]

end

/-! ### Hex digits of a 64-bit value (R24, R64, R96) -/

namespace Sys2Proof.Machine

theorem getElem_nibble (v : BitVec 64) (k : Nat) {i : Nat} (hi : i < 4) :
    (nibble v k)[i] = v.getLsbD (60 - 4 * k + i) := by
  simp [nibble]

theorem getLsbD_placeNibble (buf : BitVec 64) (d : BitVec 4) (n : Nat) {j : Nat} (hj : j < 64) :
    (placeNibble buf n d).getLsbD j =
      if 60 - 4 * n ≤ j ∧ j < 60 - 4 * n + 4 then d.getLsbD (j - (60 - 4 * n))
      else buf.getLsbD j := by
  have hF : ∀ i, (0xF : BitVec 64).getLsbD i = decide (i < 4) := fun i => by
    rw [show (0xF : BitVec 64) = (BitVec.allOnes 4).setWidth 64 by decide, BitVec.getLsbD_setWidth,
      BitVec.getLsbD_allOnes, ← Bool.decide_and]
    exact decide_eq_decide.2 ⟨And.right, fun h => ⟨by omega, h⟩⟩
  have hd : ∀ i, 4 ≤ i → d.getLsbD i = false := fun i hi => BitVec.getLsbD_of_ge d i hi
  simp only [placeNibble, BitVec.getLsbD_or, BitVec.getLsbD_and, BitVec.getLsbD_not,
    BitVec.getLsbD_shiftLeft, BitVec.getLsbD_setWidth, hF, hj]
  split
  · next h => simp [Nat.not_lt.2 h.1, show j - (60 - 4 * n) < 4 by omega, show j - (60 - 4 * n) < 64 by omega]
  · next h =>
    rcases Nat.lt_or_ge j (60 - 4 * n) with hlt | hge
    · simp [hlt]
    · simp [Nat.not_lt.2 hge, hd _ (show 4 ≤ j - (60 - 4 * n) by omega),
        show ¬ j - (60 - 4 * n) < 4 by omega]

/-- A placed digit stands in its place and leaves the other fifteen (R96). -/
theorem nibble_placeNibble (buf : BitVec 64) (d : BitVec 4) {n k : Nat} (hn : n < 16) (hk : k < 16) :
    nibble (placeNibble buf n d) k = if k = n then d else nibble buf k := by
  apply BitVec.eq_of_getElem_eq
  intro i hi
  rw [getElem_nibble _ _ hi, getLsbD_placeNibble _ _ _ (by omega)]
  split
  · next h =>
    obtain rfl : k = n := by omega
    rw [if_pos rfl, Nat.add_sub_cancel_left, BitVec.getLsbD_eq_getElem hi]
  · next h => rw [if_neg (by omega), getElem_nibble _ _ hi]

theorem nibble_zero (k : Nat) : nibble 0 k = 0 := by simp [nibble]

/-! ### Input fields (R24 to R29, R238) -/

theorem InputField.charIn_of_place {f : InputField} {ch : Char8} (h : isHex ch = true)
    (hc : f.cnt.toNat < 16) :
    f.charIn ch =
      { f with buf := placeNibble f.buf f.cnt.toNat (hexDigit ch), cnt := f.cnt + 1 } := by
  have hlt : f.cnt < 16 := hc
  simp only [InputField.charIn, h, hlt, if_true]

theorem InputField.charIn_of_full {f : InputField} {ch : Char8} (h : isHex ch = true)
    (hc : 16 ≤ f.cnt.toNat) : f.charIn ch = { f with trunc := true } := by
  have hlt : ¬ f.cnt < 16 := Nat.not_lt.2 hc
  simp only [InputField.charIn, h, hlt, if_true, if_false]

theorem InputField.charIn_of_not_hex {f : InputField} {ch : Char8} (h : isHex ch = false) :
    f.charIn ch = { f with mal := true } := by simp [InputField.charIn, h]

/-- The count does not wrap when a digit is taken. -/
theorem InputField.toNat_cnt_succ {f : InputField} (hc : f.cnt.toNat < 16) :
    (f.cnt + 1).toNat = f.cnt.toNat + 1 := by
  rw [BitVec.toNat_add]; simp; omega

theorem InputField.ok_empty : InputField.empty.Ok :=
  ⟨by decide, fun k _ _ => nibble_zero k⟩

theorem InputField.Ok.charIn {f : InputField} (h : f.Ok) (ch : Char8) : (f.charIn ch).Ok := by
  obtain ⟨hcnt, hpad⟩ := h
  cases hx : isHex ch with
  | false => rw [InputField.charIn_of_not_hex hx]; exact ⟨hcnt, hpad⟩
  | true =>
    by_cases hc : f.cnt.toNat < 16
    · rw [InputField.charIn_of_place hx hc]
      have hs := InputField.toNat_cnt_succ hc
      refine ⟨by simp only [hs]; omega, fun k hk hk16 => ?_⟩
      simp only [hs] at hk
      rw [nibble_placeNibble _ _ hc hk16, if_neg (by omega), hpad k (by omega) hk16]
    · rw [InputField.charIn_of_full hx (Nat.not_lt.1 hc)]; exact ⟨hcnt, hpad⟩

end Sys2Proof.Machine

/-! ### What a turn of the host can change (R230 to R243) -/

namespace Sys2Proof.Machine

/-- `t` is `s` but for the sticky error bits and the model's own fields, the reset input apart. -/
inductive SameRun (s : State) : State → Prop where
  | intro (errMalformed errBusy errCmd : Bool) (draws : Nat) (response : Response)
      (program : List HostOp) (sched : List Turn) :
      SameRun s { s with
        errMalformed := errMalformed, errBusy := errBusy, errCmd := errCmd, draws := draws,
        response := response, program := program, sched := sched }

theorem SameRun.trans {s t u : State} (h : SameRun s t) (h' : SameRun t u) : SameRun s u := by
  cases h; cases h'; exact ⟨_, _, _, _, _, _, _⟩

theorem SameRun.refl {s : State} : SameRun s s := ⟨_, _, _, _, _, _, _⟩

theorem sameRun_respond (s : State) (a : Response) : SameRun s (s.respond a) := ⟨_, _, _, _, _, _, _⟩

theorem sameRun_busError (s : State) (k : AccessKind) : SameRun s (s.busError k) :=
  ⟨_, _, _, _, _, _, _⟩

theorem sameRun_passTurn (s : State) : SameRun s s.passTurn := ⟨_, _, _, _, _, _, _⟩

theorem sameRun_passOp (s : State) : SameRun s s.passOp := ⟨_, _, _, _, _, _, _⟩

theorem sameRun_noteReads (s : State) (offs : List Nat) : SameRun s (s.noteReads offs) := by
  unfold State.noteReads; split <;> exact ⟨_, _, _, _, _, _, _⟩

theorem sameRun_noteRead (s : State) (off : Offset) : SameRun s (s.noteRead off) := by
  unfold State.noteRead
  split
  · exact sameRun_noteReads s _
  · exact .refl

/-- What the host can make of an input field: it leaves it, clears it, or writes a character. -/
inductive InputStep (f : InputField) : InputField → Prop where
  | same : InputStep f f
  | clear : InputStep f .empty
  | char (ch : Char8) : InputStep f (f.charIn ch)

theorem InputStep.ok {f f' : InputField} (h : InputStep f f') (hf : f.Ok) : f'.Ok := by
  cases h with
  | same => exact hf
  | clear => exact InputField.ok_empty
  | char ch => exact hf.charIn ch

/-- What a turn of the host can change: nothing of the run; the input fields of an idle engine; by a
`START` of an idle engine, `VALID` when an input is malformed and else the run itself. -/
inductive HostChange (s : State) : State → Prop where
  | same {t : State} (h : SameRun s t) : HostChange s t
  | inputs {t : State} {pt key : InputField} (idle : s.busy = false) (hpt : InputStep s.pt pt)
      (hkey : InputStep s.key key) (h : SameRun { s with pt := pt, key := key } t) : HostChange s t
  | refused {t : State} (idle : s.busy = false) (h : SameRun { s with valid := false } t) :
      HostChange s t
  | started {t : State} (idle : s.busy = false) (live : s.fatal = false)
      (h : SameRun { s with valid := false, busy := true, stage := stageLoad } t) : HostChange s t

theorem HostChange.trans_sameRun {s t u : State} (h : HostChange s t) (h' : SameRun t u) :
    HostChange s u := by
  cases h with
  | same h => exact .same (h.trans h')
  | inputs idle hpt hkey h => exact .inputs idle hpt hkey (h.trans h')
  | refused idle h => exact .refused idle (h.trans h')
  | started idle live h => exact .started idle live (h.trans h')

theorem SameRun.trans_hostChange {s t u : State} (h : SameRun s t) (h' : HostChange t u) :
    HostChange s u := by
  obtain ⟨em, eb, ec, dr, re, pr, sc⟩ := h
  cases h' with
  | same h' => exact .same (SameRun.trans ⟨em, eb, ec, dr, re, pr, sc⟩ h')
  | inputs idle hpt hkey h' =>
    exact .inputs idle hpt hkey (SameRun.trans ⟨em, eb, ec, dr, re, pr, sc⟩ h')
  | refused idle h' => exact .refused idle (SameRun.trans ⟨em, eb, ec, dr, re, pr, sc⟩ h')
  | started idle live h' => exact .started idle live (SameRun.trans ⟨em, eb, ec, dr, re, pr, sc⟩ h')

/-- An effect that needs the engine idle changes nothing of a run (R262). -/
theorem hostChange_whenIdle {f : State → State} {s : State}
    (h : s.busy = false → HostChange s (f s)) : HostChange s (s.whenIdle f) := by
  obtain ⟨_, hw⟩ | ⟨hb, hw⟩ := s.whenIdle_cases f
  · rw [hw]; exact .same ⟨_, _, _, _, _, _, _⟩
  · rw [hw]; exact h hb

theorem hostChange_startEffect {s : State} (hf : s.fatal = false) : HostChange s (startEffect s) := by
  refine hostChange_whenIdle fun hb => ?_
  split
  · exact .refused hb ⟨_, _, _, _, _, _, _⟩
  · exact .started hb hf ⟨_, _, _, _, _, _, _⟩

theorem hostChange_commandEffect {s : State} (hf : s.fatal = false) (code : BitVec 4) :
    HostChange s (commandEffect code s) := by
  unfold commandEffect
  split_ifs
  · exact .same .refl
  · exact hostChange_whenIdle fun hb => .inputs hb .clear .same ⟨_, _, _, _, _, _, _⟩
  · exact hostChange_whenIdle fun hb => .inputs hb .same .clear ⟨_, _, _, _, _, _, _⟩
  · exact hostChange_whenIdle fun hb => .inputs hb .clear .clear ⟨_, _, _, _, _, _, _⟩
  · exact hostChange_startEffect hf
  · exact .same ⟨_, _, _, _, _, _, _⟩
  · exact .same ⟨_, _, _, _, _, _, _⟩

theorem hostChange_charInEffect (n : InputName) (data : Word) (s : State) :
    HostChange s (charInEffect n data s) :=
  hostChange_whenIdle fun hb => by
    cases n
    · exact .inputs hb (.char _) .same ⟨_, _, _, _, _, _, _⟩
    · exact .inputs hb .same (.char _) ⟨_, _, _, _, _, _, _⟩

theorem hostChange_portWrite {f : State → State} {s : State}
    (h : s.fatal = false → HostChange s (f s)) : HostChange s (s.portWrite f) := by
  obtain ⟨_, hw⟩ | ⟨hf, hw⟩ := s.portWrite_cases f
  · rw [hw]; exact .same (sameRun_respond _ _)
  · rw [hw]; exact (h hf).trans_sameRun (sameRun_respond _ _)

theorem HostEffect.hostChange {s t : State} (h : HostEffect s t) : HostChange s t := by
  obtain ⟨kind, rfl⟩ | ⟨off, rfl⟩ | rfl | ⟨code, rfl⟩ | ⟨n, data, rfl⟩ := h
  · exact .same (sameRun_busError s kind)
  · exact .same ((sameRun_noteRead s off).trans (sameRun_respond _ _))
  · exact .same (sameRun_respond _ _)
  · exact hostChange_portWrite fun hf => hostChange_commandEffect hf code
  · exact hostChange_portWrite fun _ => hostChange_charInEffect n data s

theorem hostChange_of_hostOperation {s t : State} (h : s.hostOperation exec = .next t) :
    HostChange s t := by
  obtain ⟨t', ht, hc⟩ := hostOperation_cases s
  obtain rfl : t' = t := by simpa [ht] using h
  obtain rfl | he | he | ⟨u, he, rfl⟩ := hc
  · exact .same .refl
  · exact he.hostChange
  · exact (sameRun_passOp s).trans_hostChange he.hostChange
  · exact he.hostChange.trans_sameRun (sameRun_passOp u)

/-- What a step that answers a next state made of the state: the reset input moved, a stage of a busy
engine was executed, the host had its turn, or nothing of the run changed. -/
theorem step_change {s t : State} (h : step s = .next t) :
    (s.turn = .assertReset ∧ t = s.passTurn.assertReset) ∨
    (s.turn = .releaseReset ∧ s.inReset = true ∧ t = s.passTurn.afterReset) ∨
    (s.turn = .engine ∧ s.inReset = false ∧ s.busy = true ∧
      exec (decodeStage s.stage) s.passTurn = .next t) ∨
    (s.turn = .host ∧ s.inReset = false ∧ HostChange s t) ∨
    (¬(s.turn = .releaseReset ∧ s.inReset = true) ∧ SameRun s t) := by
  obtain ⟨ht, rfl⟩ | ⟨ht, hr, rfl⟩ | ⟨_, hr, rfl⟩ | ⟨ht, _, rfl⟩ | ⟨ht, _, _, rfl⟩ |
    ⟨ht, hr, hb, he⟩ | ⟨ht, hr, he⟩ := step_cases h
  · exact .inl ⟨ht, rfl⟩
  · exact .inr (.inl ⟨ht, hr, rfl⟩)
  · exact .inr (.inr (.inr (.inr ⟨by simp [hr], sameRun_passTurn s⟩)))
  · exact .inr (.inr (.inr (.inr ⟨by obtain ht | ht := ht <;> simp [ht], sameRun_passTurn s⟩)))
  · exact .inr (.inr (.inr (.inr ⟨by simp [ht], sameRun_passTurn s⟩)))
  · exact .inr (.inr (.inl ⟨ht, hr, hb, he⟩))
  · exact .inr (.inr (.inr (.inl ⟨ht, hr,
      (sameRun_passTurn s).trans_hostChange (hostChange_of_hostOperation he)⟩)))

end Sys2Proof.Machine

/-! ### The sequence of stages (R28, R206) -/

namespace Sys2Proof.Machine

/-- The effect of a stage, apart from `STAGE` (R160, R161, R187, R201, R203, R204). -/
def stageEffect : Instr → State → State
  | .load => loadEffect
  | .pc1 => pc1Effect
  | .ks i => ksEffect i
  | .ip => ipEffect
  | .rnd i => rndEffect i
  | .fp => fpEffect
  | _ => id

/-- A stage of a busy engine takes effect and `STAGE` moves to its successor, all at once (R206). -/
theorem exec_stage {i : Instr} {n : Nat} {s : State} (hi : stagePlace i = some n)
    (hb : s.busy = true) : exec i s = .next { stageEffect i s with stage := stageSucc i } := by
  cases i with
  | load => exact congrArg _ (State.engineStep_of_busy hb)
  | pc1 => exact congrArg _ (State.engineStep_of_busy hb)
  | ks i => exact congrArg _ (State.engineStep_of_busy hb)
  | ip => exact congrArg _ (State.engineStep_of_busy hb)
  | rnd i => exact congrArg _ (State.engineStep_of_busy hb)
  | fp => exact congrArg _ (State.engineStep_of_busy hb)
  | _ => simp [stagePlace] at hi

/-- The stage after one other than `FP` has the next place. -/
theorem stagePlace_stageSucc {i : Instr} {n : Nat} (hi : stagePlace i = some n) (hfp : i ≠ .fp) :
    stagePlace (decodeStage (stageSucc i)) = some (n + 1) := by
  cases i with
  | load => obtain rfl : 0 = n := by simpa [stagePlace] using hi
            decide
  | pc1 => obtain rfl : 1 = n := by simpa [stagePlace] using hi
           decide
  | ks i => obtain rfl : 2 + i.val = n := by simpa [stagePlace] using hi
            revert i; decide
  | ip => obtain rfl : 18 = n := by simpa [stagePlace] using hi
          decide
  | rnd i => obtain rfl : 19 + i.val = n := by simpa [stagePlace] using hi
             revert i; decide
  | fp => exact absurd rfl hfp
  | _ => simp [stagePlace] at hi

theorem stagePlace_stageIdle : stagePlace (decodeStage stageIdle) = none := by decide

/-- A code of the sequence is not that of `IDLE`. -/
theorem ne_stageIdle_of_stagePlace {c : BitVec 6} {n : Nat}
    (h : stagePlace (decodeStage c) = some n) : c ≠ stageIdle := by
  rintro rfl
  simp [stagePlace_stageIdle] at h

theorem legalStage_of_stagePlace {c : BitVec 6} {n : Nat}
    (h : stagePlace (decodeStage c) = some n) : legalStage c = true := by
  simp [legalStage, h]

/-- The successor of a stage is a legal code, and `IDLE` after `FP` only (R27, R28). -/
theorem stageSucc_legal {i : Instr} {n : Nat} (hi : stagePlace i = some n) :
    legalStage (stageSucc i) = true ∧ (i ≠ .fp ↔ stageSucc i ≠ stageIdle) := by
  by_cases hfp : i = .fp
  · subst hfp
    exact ⟨by decide, by decide⟩
  · have h := stagePlace_stageSucc hi hfp
    exact ⟨legalStage_of_stagePlace h, by simp [hfp, ne_stageIdle_of_stagePlace h]⟩

/-- A busy engine that meets the invariants is at some place of the sequence. -/
theorem State.Inv.stagePlace_of_busy {s : State} (h : s.Inv) (hb : s.busy = true) :
    ∃ n, stagePlace (decodeStage s.stage) = some n := by
  have hl := h.stage_legal
  simp only [legalStage, Bool.or_eq_true, beq_iff_eq, h.busy_iff_stage.1 hb, false_or] at hl
  exact Option.isSome_iff_exists.1 hl

end Sys2Proof.Machine

/-! ### The trace memory stays canonical (R61, R63) -/

namespace Sys2Proof.Machine

/-- The words of a trace field are trace words (R61, R63). -/
theorem isTraceOffset_word {f : TField} {j : Nat} (hj : j < f.words) :
    isTraceOffset (f.offset + 4 * j) = true := by
  simp only [isTraceOffset, Bool.and_eq_true, Bool.or_eq_true, beq_iff_eq, decide_eq_true_eq]
  cases f with
  | rnd f i => cases f <;> simp only [TField.words, TField.offset, RndField.offset] at * <;> omega
  | kg f i => cases f <;> simp only [TField.words, TField.offset, KgField.offset] at * <;> omega
  | _ => simp only [TField.words, TField.offset] at *; omega

/-- The canonical form of the trace memory: offsets rising, and of trace words only. -/
def Memory.Ok (m : Memory) : Prop :=
  Memory.wf m = true ∧ ∀ a w, (a, w) ∈ m → isTraceOffset a = true

theorem Memory.Ok.storeWords {m : Memory} (h : Memory.Ok m) {f : TField} {ws : List Word}
    (hws : ws.length = f.words) : Memory.Ok (Memory.storeWords m f.offset ws) := by
  refine ⟨Memory.wf_storeWords h.1 _ _, fun a w hmem => ?_⟩
  obtain hmem | ⟨j, hj, rfl : a = _⟩ := Memory.mem_storeWords hmem
  · exact h.2 a w hmem
  · exact isTraceOffset_word (hws ▸ hj)

theorem Memory.Ok.putSlot {m : Memory} (h : Memory.Ok m) {w : Nat} {f : TField} (hf : f.words = 2)
    (v : BitVec w) : Memory.Ok (Memory.putSlot m f v) := h.storeWords (by simp [slotWords, hf])

theorem Memory.Ok.putAscii {m : Memory} (h : Memory.Ok m) {f : TField} (hf : f.words = 4)
    (v : BitVec 128) : Memory.Ok (Memory.putAscii m f v) := h.storeWords (by simp [asciiWords, hf])

theorem Memory.Ok.putKg {m : Memory} (h : Memory.Ok m) (i : Fin 16) (g : KgRecord) :
    Memory.Ok (putKg m i g) := by
  unfold Machine.putKg
  iterate 7 refine Memory.Ok.putSlot ?_ rfl _
  exact h

theorem Memory.Ok.putRnd {m : Memory} (h : Memory.Ok m) (i : Fin 16) (g : RoundRecord) :
    Memory.Ok (putRnd m i g) := by
  unfold Machine.putRnd
  iterate 8 refine Memory.Ok.putSlot ?_ rfl _
  exact h

/-- Every stage writes trace fields only. -/
theorem stageEffect_trace_ok {i : Instr} {n : Nat} {s : State} (hi : stagePlace i = some n)
    (h : Memory.Ok s.trace) : Memory.Ok (stageEffect i s).trace := by
  cases i with
  | load =>
    simp only [stageEffect, loadEffect]
    exact (((h.putSlot rfl _).putSlot rfl _).putAscii rfl _).putAscii rfl _
  | pc1 => simp only [stageEffect, pc1Effect]; exact h.putSlot rfl _
  | ks i => simp only [stageEffect, ksEffect]; exact h.putKg i _
  | ip => simp only [stageEffect, ipEffect]; exact h.putSlot rfl _
  | rnd i => simp only [stageEffect, rndEffect]; exact h.putRnd i _
  | fp => simp only [stageEffect, fpEffect]; exact (h.putSlot rfl _).putAscii rfl _
  | _ => simp [stagePlace] at hi

end Sys2Proof.Machine

/-! ### The invariants (R46) -/

namespace Sys2Proof.Machine

theorem inv_resetWith (T : Tables) : (State.resetWith T).Inv where
  busy_iff_stage := by simp [State.resetWith, stageIdle]
  stage_legal := (by decide : legalStage stageIdle = true)
  fatal_eq := rfl
  fatal_quiet := fun _ => ⟨rfl, rfl⟩
  busy_not_valid := fun _ => rfl
  pt_ok := InputField.ok_empty
  key_ok := InputField.ok_empty
  trace_wf := rfl
  trace_offsets := by simp [State.resetWith]

/-- The invariants speak of no sticky error bit and of no field of the model's own. -/
theorem State.Inv.of_sameRun {s t : State} (h : s.Inv) (hst : SameRun s t) : t.Inv := by
  cases hst
  exact ⟨h.busy_iff_stage, h.stage_legal, h.fatal_eq, h.fatal_quiet, h.busy_not_valid, h.pt_ok,
    h.key_ok, h.trace_wf, h.trace_offsets⟩

theorem State.Inv.assertReset {s : State} (h : s.Inv) : s.assertReset.Inv :=
  ⟨h.busy_iff_stage, h.stage_legal, h.fatal_eq, h.fatal_quiet, h.busy_not_valid, h.pt_ok,
    h.key_ok, h.trace_wf, h.trace_offsets⟩

theorem sameRun_afterReset (s : State) : SameRun (State.resetWith s.tables) s.afterReset :=
  ⟨_, _, _, _, _, _, _⟩

theorem State.Inv.of_hostChange {s t : State} (h : s.Inv) (hst : HostChange s t) : t.Inv := by
  cases hst with
  | same hst => exact h.of_sameRun hst
  | inputs _ hpt hkey hst =>
    refine State.Inv.of_sameRun ?_ hst
    exact ⟨h.busy_iff_stage, h.stage_legal, h.fatal_eq, h.fatal_quiet, h.busy_not_valid,
      hpt.ok h.pt_ok, hkey.ok h.key_ok, h.trace_wf, h.trace_offsets⟩
  | refused _ hst =>
    refine State.Inv.of_sameRun ?_ hst
    exact ⟨h.busy_iff_stage, h.stage_legal, h.fatal_eq, fun hf => ⟨(h.fatal_quiet hf).1, rfl⟩,
      fun _ => rfl, h.pt_ok, h.key_ok, h.trace_wf, h.trace_offsets⟩
  | started _ live hst =>
    refine State.Inv.of_sameRun ?_ hst
    exact ⟨iff_of_true rfl (by decide : stageLoad ≠ stageIdle),
      (by decide : legalStage stageLoad = true), h.fatal_eq,
      fun hf => absurd (live.symm.trans hf) Bool.false_ne_true, fun _ => rfl, h.pt_ok, h.key_ok,
      h.trace_wf, h.trace_offsets⟩

theorem State.Inv.of_exec_stage {i : Instr} {n : Nat} {s t : State} (h : s.Inv)
    (hi : stagePlace i = some n) (hb : s.busy = true) (hst : exec i s = .next t) : t.Inv := by
  obtain ⟨t', ht', hstage, hbusy, hvalid, htables, hpt, hkey, hfatal, _⟩ := exec_stage_of_busy hi hb
  obtain rfl : t' = t := Host.Outcome.next.inj (ht'.symm.trans hst)
  have htrace : Memory.Ok t'.trace := by
    rw [← Host.Outcome.next.inj ((exec_stage hi hb).symm.trans ht')]
    exact stageEffect_trace_ok hi ⟨h.trace_wf, h.trace_offsets⟩
  obtain ⟨hlegal, hidle⟩ := stageSucc_legal hi
  have hlive : t'.fatal ≠ true := fun hf => by simp [(h.fatal_quiet (hfatal ▸ hf)).1] at hb
  exact {
    busy_iff_stage := by rw [hbusy, hstage, decide_eq_true_iff, hidle]
    stage_legal := hstage ▸ hlegal
    fatal_eq := by rw [hfatal, htables, h.fatal_eq]
    fatal_quiet := fun hf => absurd hf hlive
    busy_not_valid := fun hb' => by
      have hfp : i ≠ .fp := of_decide_eq_true (hbusy ▸ hb')
      simp [hvalid, h.busy_not_valid hb, hfp]
    pt_ok := hpt ▸ h.pt_ok
    key_ok := hkey ▸ h.key_ok
    trace_wf := htrace.1
    trace_offsets := htrace.2 }

theorem State.Inv.of_step {s t : State} (h : s.Inv) (hst : step s = .next t) : t.Inv := by
  have hp : s.passTurn.Inv := h.of_sameRun (sameRun_passTurn s)
  obtain ⟨_, rfl⟩ | ⟨_, _, rfl⟩ | ⟨_, _, hb, he⟩ | ⟨_, _, hc⟩ | ⟨_, hs⟩ := step_change hst
  · exact hp.assertReset
  · exact (inv_resetWith _).of_sameRun (sameRun_afterReset _)
  · obtain ⟨n, hn⟩ := h.stagePlace_of_busy hb
    exact hp.of_exec_stage hn hb he
  · exact h.of_hostChange hc
  · exact h.of_sameRun hs

end Sys2Proof.Machine

section

open Sys2Proof Sys2Proof.Machine

/-- Settles O44, by the cases of a step: the reset input, a stage of a busy engine, the host. -/
theorem everyStepKeepsTheInvariants : Obligations.EveryStepKeepsTheInvariants :=
  fun _ _ h hst => h.of_step hst

end

/-! ### The fixed sequence as a list of codes (R28, R97) -/

namespace Sys2Proof.Machine

open Sys2Proof.Statements

/-- The code at place `n` of the sequence names the stage of that place. -/
theorem stagePlace_of_runSequence {n : Nat} (hn : n < 36) {c : BitVec 6}
    (h : runSequence[n]? = some c) : stagePlace (decodeStage c) = some n := by
  have all : ∀ n < 36, ∀ c ∈ runSequence[n]?, stagePlace (decodeStage c) = some n := by decide
  exact all n hn c h

/-- A code that names a stage of the sequence stands at the place of that stage, and the code of the
successor after it. -/
theorem runSequence_of_stagePlace {n : Nat} {c : BitVec 6}
    (h : stagePlace (decodeStage c) = some n) :
    runSequence[n]? = some c ∧ runSequence[n + 1]? = some (stageSucc (decodeStage c)) := by
  have all : ∀ c : BitVec 6, ∀ n ∈ stagePlace (decodeStage c),
      runSequence[n]? = some c ∧ runSequence[n + 1]? = some (stageSucc (decodeStage c)) := by decide
  exact all c n h

/-- The sequence has 36 places, and `FP` alone stands at the last one. -/
theorem stagePlace_bounds {i : Instr} {n : Nat} (hi : stagePlace i = some n) :
    n < 36 ∧ (i = .fp ↔ n = 35) := by
  cases i with
  | load | pc1 | ip | fp => simp only [stagePlace, Option.some.injEq] at hi; simp; omega
  | ks i | rnd i => simp only [stagePlace, Option.some.injEq] at hi; simp; omega
  | _ => simp [stagePlace] at hi

/-- A code names a stage of the sequence, `IDLE` or a reserved row (R97, R98). -/
theorem decodeStage_cases (c : BitVec 6) :
    (stagePlace (decodeStage c)).isSome = true ∨ decodeStage c = .idle ∨
      decodeStage c = .stageReserved05 ∨ (∃ b, decodeStage c = .stageReserved06to07 b) ∨
      (∃ b, decodeStage c = .stageReserved08to0F b) ∨
      (∃ b, decodeStage c = .stageReserved30to3F b) := by
  revert c
  decide

/-- A busy engine executes a stage of the sequence or stops (R98, R206, R266). -/
theorem stagePlace_or_fault (c : BitVec 6) {s : State} (hb : s.busy = true) :
    (∃ n, stagePlace (decodeStage c) = some n) ∨
      exec (decodeStage c) s = .fault .reservedStage := by
  obtain h | h | h | ⟨b, h⟩ | ⟨b, h⟩ | ⟨b, h⟩ := decodeStage_cases c
  · exact .inl (Option.isSome_iff_exists.1 h)
  · rw [h]; exact .inr (if_pos hb)
  all_goals rw [h]; exact .inr rfl

theorem stagePlace_of_exec {c : BitVec 6} {s t : State} (hb : s.busy = true)
    (h : exec (decodeStage c) s = .next t) : ∃ n, stagePlace (decodeStage c) = some n :=
  (stagePlace_or_fault c hb).resolve_right fun hf => by simp [hf] at h

/-- The step of a busy engine with reset released is the execution of its stage (R206). -/
theorem step_of_busy {s : State} (hr : s.inReset = false) (hb : s.busy = true)
    (ht : s.turn = .engine) : step s = exec (decodeStage s.stage) s.passTurn := by
  simp only [step, ht]
  rw [State.engineTurn_of_not_held (s := s.passTurn) hr, State.fetchStage_of_busy (s := s.passTurn) hb,
    State.passTurn_stage]

end Sys2Proof.Machine

/-! ### What a turn of the host leaves unchanged (R40, R45, R67) -/

namespace Sys2Proof.Machine

theorem HostChange.frame {s t : State} (h : HostChange s t) :
    t.tables = s.tables ∧ t.fatal = s.fatal ∧ t.trace = s.trace := by
  cases h with
  | same h => cases h; exact ⟨rfl, rfl, rfl⟩
  | inputs _ _ _ h => cases h; exact ⟨rfl, rfl, rfl⟩
  | refused _ h => cases h; exact ⟨rfl, rfl, rfl⟩
  | started _ _ h => cases h; exact ⟨rfl, rfl, rfl⟩

/-- An effect that moves no stage of an idle engine moves none. -/
theorem whenIdle_stage {f : State → State} {s : State} (h : (f s).stage = s.stage) :
    (s.whenIdle f).stage = s.stage := by
  obtain ⟨_, hw⟩ | ⟨_, hw⟩ := s.whenIdle_cases f
  · rw [hw]; rfl
  · rw [hw]; exact h

/-- A character write moves no stage. -/
theorem portWrite_charInEffect_stage (n : InputName) (data : Word) (s : State) :
    (s.portWrite (charInEffect n data)).stage = s.stage := by
  obtain ⟨_, hw⟩ | ⟨_, hw⟩ := s.portWrite_cases (charInEffect n data)
  · rw [hw]; rfl
  · rw [hw, State.respond_stage]
    exact whenIdle_stage (by cases n <;> rfl)

/-- `t` is what an accepted `START` makes of `s` (R235). -/
def StartAccepted (s t : State) : Prop :=
  s.fatal = false ∧ s.busy = false ∧ s.pt.mal = false ∧ s.key.mal = false ∧
    t = { s with
      errMalformed := false, valid := false, busy := true, stage := stageLoad, response := .written }

/-- A `START` that moves `STAGE` finds an idle engine and no malformed field (R235). -/
theorem startEffect_of_stage_ne {s : State} (h : (startEffect s).stage ≠ s.stage) :
    s.busy = false ∧ s.pt.mal = false ∧ s.key.mal = false ∧
      startEffect s = { s with
        errMalformed := false, valid := false, busy := true, stage := stageLoad } := by
  cases hb : s.busy with
  | true =>
    rw [startEffect, State.whenIdle_of_busy hb] at h
    exact absurd rfl h
  | false =>
    rw [startEffect, State.whenIdle_of_idle hb] at h ⊢
    split at h
    · exact absurd rfl h
    · next hm =>
      rw [if_neg hm]
      simp only [not_or, Bool.not_eq_true] at hm
      exact ⟨rfl, hm.1, hm.2, rfl⟩

/-- A command moves `STAGE` only if it is an accepted `START` (R242). -/
theorem portWrite_commandEffect_of_stage_ne {code : BitVec 4} {s : State}
    (h : (s.portWrite (commandEffect code)).stage ≠ s.stage) :
    code = 4 ∧ StartAccepted s (s.portWrite (commandEffect code)) := by
  obtain ⟨_, hw⟩ | ⟨hf, hw⟩ := s.portWrite_cases (commandEffect code)
  · rw [hw] at h; exact absurd rfl h
  · rw [hw] at h ⊢
    simp only [State.respond_stage, commandEffect] at h ⊢
    split_ifs at h ⊢ with h0 h1 h2 h3 h4 h5
    · exact absurd rfl h
    · exact absurd (whenIdle_stage rfl) h
    · exact absurd (whenIdle_stage rfl) h
    · exact absurd (whenIdle_stage rfl) h
    · obtain ⟨hb, hp, hk, he⟩ := startEffect_of_stage_ne h
      exact ⟨h4, hf, hb, hp, hk, by rw [he]; rfl⟩
    · exact absurd rfl h
    · exact absurd rfl h

/-- A bus access moves `STAGE` only if it is a word write of code 4 to `CTRL` (R91, R235). -/
theorem exec_decodeHbus_of_stage_ne {a : BusAccess} {s t : State}
    (h : exec (decodeHbus a) s = .next t) (hne : t.stage ≠ s.stage) :
    ∃ data, a = ⟨0x004, 4, .write data⟩ ∧ commandCode data = 4 ∧ StartAccepted s t := by
  obtain ⟨off, size, kind⟩ := a
  unfold decodeHbus at h
  split at h
  · obtain rfl := Host.Outcome.next.inj h
    exact absurd rfl hne
  next hmis =>
  split at h
  · obtain rfl := Host.Outcome.next.inj h
    exact absurd rfl hne
  cases kind with
  | read =>
    simp only [exec, execRd] at h
    split at h
    · obtain rfl := Host.Outcome.next.inj h
      exact absurd (State.noteRead_stage s off) hne
    · obtain rfl := Host.Outcome.next.inj h
      exact absurd rfl hne
  | write data =>
    simp only at h
    split_ifs at h with hctrl
    · obtain rfl := Host.Outcome.next.inj h
      obtain ⟨hcode, hs⟩ := portWrite_commandEffect_of_stage_ne hne
      have hsize : size = 4 := by simpa using (not_or.1 hmis).1
      exact ⟨data, by rw [hctrl, hsize], hcode, hs⟩
    · obtain rfl := Host.Outcome.next.inj h
      exact absurd (portWrite_charInEffect_stage _ _ s) hne
    · obtain rfl := Host.Outcome.next.inj h
      exact absurd (portWrite_charInEffect_stage _ _ s) hne
    · obtain rfl := Host.Outcome.next.inj h
      exact absurd rfl hne

/-- The host moves `STAGE` only by a word write of code 4 to `CTRL`. -/
theorem hostOperation_of_stage_ne {s t : State} (h : s.hostOperation exec = .next t)
    (hne : t.stage ≠ s.stage) :
    ∃ data ops, s.program = .access ⟨0x004, 4, .write data⟩ :: ops ∧ commandCode data = 4 ∧
      StartAccepted s.passOp t := by
  cases hp : s.program with
  | nil =>
    rw [State.hostOperation_nil hp] at h
    obtain rfl := Host.Outcome.next.inj h
    exact absurd rfl hne
  | cons op ops =>
    cases op with
    | access a =>
      rw [State.hostOperation_access hp] at h
      obtain ⟨data, rfl, hcode, hs⟩ := exec_decodeHbus_of_stage_ne h hne
      exact ⟨data, ops, rfl, hcode, hs⟩
    | poll off mask val =>
      obtain ⟨u, hu, _⟩ := exec_decodeHbus ⟨off, 4, .read⟩ s
      rw [State.hostOperation_poll hp hu] at h
      have hstage : t.stage = u.stage := by
        rw [← Host.Outcome.next.inj h]; split <;> rfl
      obtain ⟨data, ha, _⟩ := exec_decodeHbus_of_stage_ne hu (hstage ▸ hne)
      simp at ha

/-- The command code of a data word is its value modulo 16 (R92). -/
theorem toNat_commandCode (data : Word) : (commandCode data).toNat = data.toNat % 16 := by
  simp [commandCode]

end Sys2Proof.Machine

section

open Sys2Proof Sys2Proof.Machine Sys2Proof.Statements

/-- Settles O36, by the place of the stage in the sequence. -/
theorem engineFollowsTheSequence : Obligations.EngineFollowsTheSequence := by
  intro n s hn hr hb ht hseq
  have hi := stagePlace_of_runSequence hn hseq
  obtain ⟨t, he, hstage, hbusy, hvalid, -⟩ := exec_stage_of_busy (s := s.passTurn) hi hb
  obtain ⟨-, hfp⟩ := stagePlace_bounds hi
  refine ⟨t, by rw [step_of_busy hr hb ht, he], ?_, ?_, ?_⟩
  · rw [hstage]; exact (runSequence_of_stagePlace hi).2
  · rw [hbusy, decide_eq_decide, ne_eq, hfp]; omega
  · rw [hvalid]; simp only [hfp]; rfl

/-- Settles O37, by the cases of a step. -/
theorem stageChangesOnlyAsTheSequenceSays : Obligations.StageChangesOnlyAsTheSequenceSays := by
  intro s t hst hne
  obtain ⟨_, rfl⟩ | ⟨ht, hr, rfl⟩ | ⟨_, _, rfl⟩ | ⟨_, _, rfl⟩ | ⟨_, _, _, rfl⟩ |
    ⟨ht, hr, hb, he⟩ | ⟨ht, hr, he⟩ := step_cases hst
  · exact absurd rfl hne
  · exact .inr (.inr ⟨ht, hr, rfl, rfl⟩)
  · exact absurd rfl hne
  · exact absurd rfl hne
  · exact absurd rfl hne
  · obtain ⟨n, hn⟩ := stagePlace_of_exec (s := s.passTurn) hb he
    have hstage : t.stage = stageSucc (decodeStage s.stage) := by
      rw [← Host.Outcome.next.inj ((exec_stage (s := s.passTurn) hn hb).symm.trans he)]
    obtain ⟨hcur, hsucc⟩ := runSequence_of_stagePlace hn
    exact .inl ⟨ht, hr, hb, n, (stagePlace_bounds hn).1, hcur, hstage ▸ hsucc⟩
  · obtain ⟨data, ops, hp, hcode, hf, hb, hpt, hkey, rfl⟩ := hostOperation_of_stage_ne he hne
    have hdata : data.toNat % 16 = 4 := by rw [← toNat_commandCode, hcode]; rfl
    exact .inr (.inl ⟨ht, hr, ⟨data, ops, hdata, hp⟩, hb, hf, hpt, hkey, rfl, rfl, rfl, rfl⟩)

/-- Settles O38, by the cases of a step. -/
theorem tablesNeverChangeAndFatalOnlyByReset : Obligations.TablesNeverChangeAndFatalOnlyByReset := by
  intro s t hst
  obtain ⟨_, rfl⟩ | ⟨ht, hr, rfl⟩ | ⟨_, _, hb, he⟩ | ⟨_, _, hc⟩ | ⟨_, hs⟩ := step_change hst
  · exact ⟨rfl, fun _ => rfl⟩
  · exact ⟨rfl, fun hn => absurd ⟨ht, hr⟩ hn⟩
  · obtain ⟨n, hn⟩ := stagePlace_of_exec (s := s.passTurn) hb he
    obtain ⟨t', ht', -, -, -, htables, -, -, hfatal, -⟩ :=
      exec_stage_of_busy (s := s.passTurn) hn hb
    obtain rfl : t' = t := Host.Outcome.next.inj (ht'.symm.trans he)
    exact ⟨htables, fun _ => hfatal⟩
  · obtain ⟨htables, hfatal, -⟩ := hc.frame
    exact ⟨htables, fun _ => hfatal⟩
  · obtain ⟨htables, hfatal, -⟩ := (HostChange.same hs).frame
    exact ⟨htables, fun _ => hfatal⟩

/-- Settles O39, by the cases of a step. -/
theorem onlyEngineStagesWriteTheTrace : Obligations.OnlyEngineStagesWriteTheTrace := by
  intro s t hst
  obtain ⟨ht, rfl⟩ | ⟨ht, hr, rfl⟩ | ⟨ht, hr, hb, _⟩ | ⟨ht, _, hc⟩ | ⟨hn, hs⟩ := step_change hst
  · exact ⟨fun _ _ => rfl, fun h => by simp [ht] at h⟩
  · exact ⟨fun _ hn => absurd ⟨ht, hr⟩ hn, fun _ _ a => Memory.get_nil a⟩
  · exact ⟨fun hn => absurd ⟨ht, hr, hb⟩ hn, fun h => by simp [ht] at h⟩
  · obtain ⟨-, -, htrace⟩ := hc.frame
    exact ⟨fun _ _ => htrace, fun h => by simp [ht] at h⟩
  · obtain ⟨-, -, htrace⟩ := (HostChange.same hs).frame
    exact ⟨fun _ _ => htrace, fun ht hr => absurd ⟨ht, hr⟩ hn⟩

end

/-! ### The end of reset (R290, R291) -/

namespace Sys2Proof.Machine

open Sys2Proof.Statements

/-- The reset state of every table set has the values the spec gives. -/
theorem hasResetValues_resetWith (T : Tables) : HasResetValues (State.resetWith T) := by
  refine ⟨rfl, rfl, rfl, rfl, rfl, rfl, rfl, rfl, rfl, Memory.get_nil, ?_,
    (by decide : State.reset.instatWord = 0)⟩
  cases h : T.wellFormed
  · simp only [State.statusWord, State.resetWith, h]; decide
  · simp only [State.statusWord, State.resetWith, h]; decide

theorem traceOk_resetWith (T : Tables) : (State.resetWith T).TraceOk where
  done := fun h => absurd h Bool.false_ne_true
  keyRegs := fun h => absurd h Bool.false_ne_true
  halves := fun h => absurd h Bool.false_ne_true
  valid := fun h => absurd h Bool.false_ne_true

/-- The trace agreement speaks of no sticky error bit and of no field of the model's own. -/
theorem State.TraceOk.of_sameRun {s t : State} (h : s.TraceOk) (hst : SameRun s t) : t.TraceOk := by
  cases hst
  exact ⟨h.done, h.keyRegs, h.halves, h.valid⟩

end Sys2Proof.Machine

/-! ### The status words, field by field (R30, R38) -/

namespace Sys2Proof.Machine

theorem InputField.statBits_layout (f : InputField) :
    f.statBits.extractLsb' 0 5 = f.cnt ∧ f.statBits.getLsbD 5 = f.trunc ∧
      f.statBits.getLsbD 6 = f.mal := by
  unfold InputField.statBits
  refine ⟨?_, ?_, ?_⟩
  · rw [BitVec.extractLsb'_append_eq_of_add_le (by decide), BitVec.extractLsb'_eq_self]
  all_goals simp only [BitVec.getLsbD_append]; simp

theorem statusWord_layout (s : State) :
    s.statusWord.getLsbD 0 = s.busy ∧ s.statusWord.getLsbD 1 = s.valid ∧
    s.statusWord.getLsbD 2 = s.errMalformed ∧ s.statusWord.getLsbD 3 = s.errBusy ∧
    s.statusWord.getLsbD 4 = s.errCmd ∧ s.statusWord.getLsbD 5 = s.fatal ∧
    s.statusWord.extractLsb' 6 2 = 0 ∧ s.statusWord.extractLsb' 8 6 = s.stage ∧
    s.statusWord.extractLsb' 14 18 = 0 := by
  unfold State.statusWord
  refine ⟨?_, ?_, ?_, ?_, ?_, ?_, ?_, ?_, ?_⟩
  case refine_7 =>
    iterate 6 rw [BitVec.extractLsb'_append_eq_of_le (by decide)]
    rw [BitVec.extractLsb'_append_eq_of_add_le (by decide), BitVec.extractLsb'_eq_self]
  case refine_8 =>
    iterate 7 rw [BitVec.extractLsb'_append_eq_of_le (by decide)]
    rw [BitVec.extractLsb'_append_eq_of_add_le (by decide), BitVec.extractLsb'_eq_self]
  case refine_9 =>
    iterate 8 rw [BitVec.extractLsb'_append_eq_of_le (by decide)]
    rw [BitVec.extractLsb'_eq_self]
  all_goals simp only [BitVec.getLsbD_append]; simp

theorem instatWord_layout (s : State) :
    s.instatWord.extractLsb' 0 5 = s.pt.cnt ∧ s.instatWord.getLsbD 5 = s.pt.trunc ∧
    s.instatWord.getLsbD 6 = s.pt.mal ∧ s.instatWord.getLsbD 7 = false ∧
    s.instatWord.extractLsb' 8 5 = s.key.cnt ∧ s.instatWord.getLsbD 13 = s.key.trunc ∧
    s.instatWord.getLsbD 14 = s.key.mal ∧ s.instatWord.extractLsb' 15 17 = 0 := by
  obtain ⟨hpc, hpt, hpm⟩ := s.pt.statBits_layout
  obtain ⟨hkc, hkt, hkm⟩ := s.key.statBits_layout
  unfold State.instatWord
  refine ⟨?_, ?_, ?_, ?_, ?_, ?_, ?_, ?_⟩
  case refine_1 => rw [BitVec.extractLsb'_append_eq_of_add_le (by decide), hpc]
  case refine_5 =>
    rw [BitVec.extractLsb'_append_eq_of_le (by decide), BitVec.extractLsb'_append_eq_of_le (by decide),
      BitVec.extractLsb'_append_eq_of_add_le (by decide), hkc]
  case refine_8 =>
    iterate 3 rw [BitVec.extractLsb'_append_eq_of_le (by decide)]
    rw [BitVec.extractLsb'_eq_self]
  all_goals
    simp only [BitVec.getLsbD_append, Nat.reduceLT, Nat.reduceSub, if_true, if_false, *]
  rfl

end Sys2Proof.Machine

section

open Sys2Proof Sys2Proof.Machine Sys2Proof.Statements

/-- Settles O7, by the one step of each turn. -/
theorem resetLeavesTheGivenValues : Obligations.ResetLeavesTheGivenValues := by
  refine ⟨hasResetValues_resetWith, fun s hr ht => step_of_held hr ht, fun s ht => ?_,
    fun s hr ht => ⟨s.passTurn.afterReset, ?_, rfl, rfl, hasResetValues_resetWith s.tables⟩⟩
  · simp only [step, ht]; rfl
  · simp only [step, ht, State.releaseReset_of_held (s := s.passTurn) hr]

/-- Settles O43: the program and the interleaving are of no account. -/
theorem invariantsHoldAfterReset : Obligations.InvariantsHoldAfterReset := fun T _ _ =>
  ⟨(inv_resetWith T).of_sameRun ⟨_, _, _, _, _, _, _⟩,
    (traceOk_resetWith T).of_sameRun ⟨_, _, _, _, _, _, _⟩⟩

/-- Settles O22: each field is a part of the concatenation that makes up the word. -/
theorem statusAndInstatLayout : Obligations.StatusAndInstatLayout :=
  fun s => ⟨statusWord_layout s, instatWord_layout s⟩

end

/-! ### The value of a string of hex digits, digit by digit (R122, R125) -/

namespace Sys2Proof.Machine

theorem hexNat_concat (s : List Char8) (ch : Char8) :
    hexNat (s ++ [ch]) = 16 * hexNat s + (hexDigit ch).toNat := by
  simp [hexNat, List.foldl_append]

/-- Digit `k` of the number a string writes is that of its character `k`. -/
theorem hexNat_digit (s : List Char8) {k : Nat} (hk : k < s.length) :
    hexNat s / 16 ^ (s.length - 1 - k) % 16 = (hexDigit s[k]).toNat := by
  induction s using List.reverseRecOn with
  | nil => simp at hk
  | append_singleton s ch ih =>
    have hd : (hexDigit ch).toNat < 16 := (hexDigit ch).isLt
    simp only [List.length_append, List.length_singleton] at hk
    rw [hexNat_concat]
    by_cases hlt : k < s.length
    · have hexp : (s ++ [ch]).length - 1 - k = (s.length - 1 - k) + 1 := by simp; omega
      rw [List.getElem_append_left hlt, ← ih hlt, hexp, Nat.pow_succ', ← Nat.div_div_eq_div_mul]
      congr 2
      omega
    · obtain rfl : k = s.length := by omega
      rw [List.getElem_concat_length rfl]
      simp
      omega

theorem toNat_nibble (v : BitVec 64) (k : Nat) :
    (nibble v k).toNat = v.toNat / 16 ^ (15 - k) % 16 := by
  rw [nibble, BitVec.extractLsb'_toNat, Nat.shiftRight_eq_div_pow,
    show 60 - 4 * k = 4 * (15 - k) by omega, Nat.pow_mul]

/-- A 64-bit value is known by its sixteen digits. -/
theorem eq_of_nibble_eq {v w : BitVec 64} (h : ∀ k < 16, nibble v k = nibble w k) : v = w := by
  apply BitVec.eq_of_getLsbD_eq
  intro i hi
  have hd := h (15 - i / 4) (by omega)
  have hbit : 60 - 4 * (15 - i / 4) + i % 4 = i := by omega
  have := congrArg (fun d : BitVec 4 => d.getLsbD (i % 4)) hd
  simpa [nibble, Nat.mod_lt, hbit] using this

theorem hexNat_lt (s : List Char8) : hexNat s < 16 ^ s.length := by
  induction s using List.reverseRecOn with
  | nil => exact Nat.one_pos
  | append_singleton s ch ih =>
    have hd : (hexDigit ch).toNat < 16 := (hexDigit ch).isLt
    rw [hexNat_concat, List.length_append, List.length_singleton, Nat.pow_succ]
    omega

theorem length_normalize (s : List Char8) : (normalize s).length = 16 := by
  simp [normalize]

/-- The padding digit has the value 0 (R125). -/
theorem hexDigit_normalize (s : List Char8) {k : Nat} (hk : k < 16) :
    hexDigit ((normalize s)[k]'(by rw [length_normalize]; exact hk)) =
      (s[k]?.map hexDigit).getD 0 := by
  simp only [normalize, List.getElem_take]
  by_cases hlt : k < s.length
  · rw [List.getElem_append_left hlt, List.getElem?_eq_getElem hlt]; rfl
  · rw [List.getElem_append_right (Nat.not_lt.1 hlt), List.getElem_replicate,
      List.getElem?_eq_none (Nat.not_lt.1 hlt)]
    decide

/-- Digit `k` of the value of a string is that of its character `k`, and 0 past its end (R125). -/
theorem nibble_hexBlock (s : List Char8) {k : Nat} (hk : k < 16) :
    nibble (hexBlock s) k = (s[k]?.map hexDigit).getD 0 := by
  have hlt : hexNat (normalize s) < 2 ^ 64 := by
    have := hexNat_lt (normalize s)
    rwa [length_normalize] at this
  apply BitVec.eq_of_toNat_eq
  rw [toNat_nibble, hexBlock, BitVec.toNat_ofNat, Nat.mod_eq_of_lt hlt, ← hexDigit_normalize s hk,
    ← hexNat_digit, length_normalize]

end Sys2Proof.Machine

/-! ### A string written character by character (R238) -/

namespace Sys2Proof.Machine

/-- `f` holds the digits `ds`, as many as have a place, the rest 0 (R24, R25, R26). -/
structure InputField.HoldsDigits (f : InputField) (ds : List Char8) : Prop where
  digits : ∀ k < 16, nibble f.buf k = (ds[k]?.map hexDigit).getD 0
  count : f.cnt.toNat = min 16 ds.length
  trunc : f.trunc = decide (16 < ds.length)

theorem InputField.holdsDigits_empty : InputField.empty.HoldsDigits [] where
  digits := fun k _ => nibble_zero k
  count := rfl
  trunc := rfl

/-- A hex digit is appended, or dropped when sixteen are held. -/
theorem InputField.HoldsDigits.charIn {f : InputField} {ds : List Char8} (h : f.HoldsDigits ds)
    {ch : Char8} (hx : isHex ch = true) : (f.charIn ch).HoldsDigits (ds ++ [ch]) := by
  obtain ⟨hdigits, hcount, htrunc⟩ := h
  by_cases hlen : ds.length < 16
  · have hn : f.cnt.toNat = ds.length := by omega
    rw [InputField.charIn_of_place hx (by omega)]
    refine ⟨fun k hk => ?_, ?_, ?_⟩
    · rw [nibble_placeNibble _ _ (by omega) hk, hn, hdigits k hk]
      split
      · next hkn => subst hkn; simp
      · next hkn =>
        by_cases hlt : k < ds.length
        · rw [List.getElem?_append_left hlt]
        · rw [List.getElem?_eq_none (by omega), List.getElem?_eq_none (by simp; omega)]
    · rw [InputField.toNat_cnt_succ (by omega), List.length_append, List.length_singleton]; omega
    · simp only [htrunc, List.length_append, List.length_singleton, decide_eq_decide]; omega
  · rw [InputField.charIn_of_full hx (by omega)]
    refine ⟨fun k hk => ?_, ?_, ?_⟩
    · rw [List.getElem?_append_left (by omega)]; exact hdigits k hk
    · simp only [hcount, List.length_append, List.length_singleton]; omega
    · simp only [List.length_append, List.length_singleton, true_eq_decide_iff]; omega

theorem InputField.charIn_mal (f : InputField) (ch : Char8) :
    (f.charIn ch).mal = (f.mal || !isHex ch) := by
  unfold InputField.charIn
  split
  · next h => split <;> simp [h]
  · next h => simp [h]

/-- The registers of a cleared field after a string has been written. -/
theorem foldl_charIn (str : List Char8) :
    (str.foldl InputField.charIn .empty).HoldsDigits (str.filter isHex) ∧
      (str.foldl InputField.charIn .empty).mal = str.any (fun ch => !isHex ch) := by
  induction str using List.reverseRecOn with
  | nil => exact ⟨InputField.holdsDigits_empty, rfl⟩
  | append_singleton str ch ih =>
    obtain ⟨hd, hmal⟩ := ih
    rw [List.foldl_append, List.filter_append, List.any_append, List.foldl_cons, List.foldl_nil]
    refine ⟨?_, by rw [InputField.charIn_mal, hmal]; simp⟩
    cases hx : isHex ch with
    | true => simpa [hx] using hd.charIn hx
    | false =>
      rw [InputField.charIn_of_not_hex hx]
      simpa [hx] using ⟨hd.digits, hd.count, hd.trunc⟩

end Sys2Proof.Machine

section

open Sys2Proof Sys2Proof.Machine

/-- Settles O19, by induction on the characters written. -/
theorem streamedStringIsNormalised : Obligations.StreamedStringIsNormalised := by
  intro str
  obtain ⟨⟨hdigits, hcount, htrunc⟩, hmal⟩ := foldl_charIn str
  refine ⟨eq_of_nibble_eq fun k hk => ?_, hcount, htrunc, hmal⟩
  rw [hdigits k hk, nibble_hexBlock _ hk]

end

/-! ### No two trace fields share a word (R61, R63) -/

namespace Sys2Proof.Machine

/-- The field at a place of a round record, the inverse of `RndField.offset` (R63). -/
def rndFieldAt (n : Nat) : RndField :=
  if n < 0x08 then .l else if n < 0x10 then .r else if n < 0x18 then .exp
  else if n < 0x20 then .k else if n < 0x28 then .xor else if n < 0x30 then .sbox
  else if n < 0x38 then .pbox else .newr

/-- The field at a place of a key-generation record, the inverse of `KgField.offset` (R63). -/
def kgFieldAt (n : Nat) : KgField :=
  if n < 0x08 then .cBefore else if n < 0x10 then .dBefore else if n < 0x18 then .shift
  else if n < 0x20 then .cAfter else if n < 0x28 then .dAfter else .k

/-- The trace field a trace word belongs to, the inverse of `TField.offset` (R63). -/
def fieldAt (n : Nat) : TField :=
  if n < 0x110 then .ptHex
  else if n < 0x120 then .keyHex
  else if n < 0x128 then .ptBin
  else if n < 0x130 then .keyBin
  else if n < 0x138 then .pc1Out
  else if n < 0x140 then .ipOut
  else if n < 0x148 then .ctBin
  else if n < 0x400 then .ctHex
  else if n < 0x800 then .rnd (rndFieldAt (n % 0x40)) (Fin.ofNat 16 ((n - 0x400) / 0x40))
  else if n < 0xC00 then .kg (kgFieldAt (n % 0x40)) (Fin.ofNat 16 ((n - 0x800) / 0x40))
  else .k (Fin.ofNat 16 ((n - 0xC00) / 8))

theorem fieldAt_word {f : TField} {j : Nat} (hj : j < f.words) :
    fieldAt (f.offset + 4 * j) = f := by
  cases f with
  | rnd f i =>
    have all : ∀ i : Fin 16, ∀ j < 2, fieldAt (TField.offset (.rnd f i) + 4 * j) = .rnd f i := by
      cases f <;> decide
    exact all i j hj
  | kg f i =>
    have all : ∀ i : Fin 16, ∀ j < 2, fieldAt (TField.offset (.kg f i) + 4 * j) = .kg f i := by
      cases f <;> decide
    exact all i j hj
  | k i =>
    have all : ∀ i : Fin 16, ∀ j < 2, fieldAt (TField.offset (.k i) + 4 * j) = .k i := by decide
    exact all i j hj
  | _ => revert j; decide

/-- A word belongs to one field only. -/
theorem TField.eq_of_word_eq {f g : TField} {j k : Nat} (hj : j < f.words) (hk : k < g.words)
    (h : f.offset + 4 * j = g.offset + 4 * k) : f = g := by
  rw [← fieldAt_word hj, h, fieldAt_word hk]

theorem Memory.get_storeWords_of_ne {m : Memory} {a b : Nat} {ws : List Word}
    (h : ∀ j < ws.length, b ≠ a + 4 * j) :
    Memory.get (Memory.storeWords m a ws) b = Memory.get m b := by
  induction ws generalizing m a with
  | nil => rfl
  | cons w ws ih =>
    rw [Memory.storeWords, ih fun j hj => ?_, Memory.get_store_of_ne m w (by simpa using h 0 (by simp))]
    have := h (j + 1) (by simpa using hj)
    omega

/-- The write of a field leaves every other field's words. -/
theorem Memory.getWords_storeWords_of_ne {m : Memory} {f g : TField} {ws : List Word}
    (hws : ws.length = f.words) (hne : g ≠ f) :
    Memory.getWords (Memory.storeWords m f.offset ws) g.offset g.words =
      Memory.getWords m g.offset g.words :=
  Memory.getWords_congr fun _ hj => Memory.get_storeWords_of_ne fun _ hk h =>
    hne (TField.eq_of_word_eq hj (hws ▸ hk) h)

end Sys2Proof.Machine

/-! ### The trace memory holds a CipherTrace's words (R62, R64, R208) -/

namespace Sys2Proof.Machine

theorem Memory.holds_putSlot {w : Nat} {m : Memory} {t : CipherTrace} {f g : TField} {v : BitVec w}
    (hf : f.words = 2) (hv : t.words f = slotWords (v.setWidth 64))
    (h : g ≠ f → Memory.holds m t g) : Memory.holds (Memory.putSlot m f v) t g := by
  by_cases hg : g = f
  · subst hg
    rw [Memory.holds, hf, Memory.getWords_putSlot_self, hv]
  · rw [Memory.holds, Memory.putSlot, Memory.getWords_storeWords_of_ne (by simp [slotWords, hf]) hg]
    exact h hg

theorem Memory.holds_putAscii {m : Memory} {t : CipherTrace} {f g : TField} {v : BitVec 128}
    (hf : f.words = 4) (hv : t.words f = asciiWords v)
    (h : g ≠ f → Memory.holds m t g) : Memory.holds (Memory.putAscii m f v) t g := by
  by_cases hg : g = f
  · subst hg
    rw [Memory.holds, hf, Memory.getWords_putAscii_self, hv]
  · rw [Memory.holds, Memory.putAscii,
      Memory.getWords_storeWords_of_ne (by simp [asciiWords, hf]) hg]
    exact h hg

theorem holds_putKg {m : Memory} {t : CipherTrace} {i : Fin 16} {g : KgRecord} {f : TField}
    (hg : t.keys.steps[i] = g) (hk : t.keys.ks[i] = g.k)
    (h : f.writtenAt ≠ 2 + i.val → Memory.holds m t f) : Memory.holds (putKg m i g) t f := by
  subst hg
  refine Memory.holds_putSlot rfl (by rw [← hk]; rfl) fun h1 => ?_
  refine Memory.holds_putSlot rfl rfl fun h2 => Memory.holds_putSlot rfl rfl fun h3 =>
    Memory.holds_putSlot rfl rfl fun h4 => Memory.holds_putSlot rfl rfl fun h5 =>
    Memory.holds_putSlot rfl rfl fun h6 => Memory.holds_putSlot rfl rfl fun h7 => h fun hat => ?_
  cases f with
  | k j => exact h1 (congrArg TField.k (Fin.ext (Nat.add_left_cancel hat)))
  | kg x j =>
    obtain rfl : j = i := Fin.ext (Nat.add_left_cancel hat)
    cases x <;> contradiction
  | _ => simp only [TField.writtenAt] at hat; omega

theorem holds_putRnd {m : Memory} {t : CipherTrace} {i : Fin 16} {g : RoundRecord} {f : TField}
    (hg : t.rounds[i] = g) (h : f.writtenAt ≠ 19 + i.val → Memory.holds m t f) :
    Memory.holds (putRnd m i g) t f := by
  subst hg
  refine Memory.holds_putSlot rfl rfl fun h1 => Memory.holds_putSlot rfl rfl fun h2 =>
    Memory.holds_putSlot rfl rfl fun h3 => Memory.holds_putSlot rfl rfl fun h4 =>
    Memory.holds_putSlot rfl rfl fun h5 => Memory.holds_putSlot rfl rfl fun h6 =>
    Memory.holds_putSlot rfl rfl fun h7 => Memory.holds_putSlot rfl rfl fun h8 => h fun hat => ?_
  cases f with
  | rnd x j =>
    obtain rfl : j = i := Fin.ext (Nat.add_left_cancel hat)
    cases x <;> contradiction
  | _ => simp only [TField.writtenAt] at hat; omega

/-- A slot field that holds a value reads as that value (R62). -/
theorem State.slot_of_holds {s : State} {t : CipherTrace} {f : TField} {v : BitVec 64}
    (hf : f.words = 2) (hv : t.words f = slotWords v) (h : Memory.holds s.trace t f) :
    s.slot f = v := by
  simp only [Memory.holds, hf, hv, Memory.getWords, slotWords, List.map_cons, List.map_nil,
    List.cons.injEq, and_true] at h
  simp only [State.slot, State.traceWord, h, Option.getD_some]
  exact (BitVec.extractLsb'_append_extractLsb'_eq_extractLsb' (by decide)).trans
    BitVec.extractLsb'_eq_self

end Sys2Proof.Machine

/-! ### What `EncryptBlock` gives each field of a trace (R162, R205) -/

namespace Sys2Proof.Machine

theorem keyRegs_succ (T : Tables) (key : BitVec 64) (i : Fin 16) :
    keyRegs T key (i.val + 1) = ((keyStep T key i).cAfter, (keyStep T key i).dAfter) := by
  simp [keyRegs, keyStep]

theorem encrypt_steps (T : Tables) (p key : BitVec 64) (i : Fin 16) :
    (encrypt T p key).keys.steps[i] = keyStep T key i := by
  simp [encrypt, keySchedule]

theorem encrypt_ks (T : Tables) (p key : BitVec 64) (i : Fin 16) :
    (encrypt T p key).keys.ks[i] = (keyStep T key i).k := by
  simp [encrypt, keySchedule]

theorem encrypt_rounds (T : Tables) (p key : BitVec 64) (i : Fin 16) :
    (encrypt T p key).rounds[i] = roundStep T p key i := by
  simp [encrypt]

theorem TField.writtenAt_lt (f : TField) : f.writtenAt < 36 := by
  cases f with
  | rnd f i | kg f i | k i => simp only [TField.writtenAt]; omega
  | _ => simp [TField.writtenAt]

end Sys2Proof.Machine

/-! ### A run computes `EncryptBlock`, stage by stage (R207, R208) -/

namespace Sys2Proof.Machine

/-- The first `n` stages of a run are done, and have left their fields and the working registers as
`EncryptBlock` of the two buffers gives them (R207). -/
structure State.RunAt (s : State) (n : Nat) : Prop where
  done : ∀ f : TField, f.writtenAt < n → Memory.holds s.trace s.runTrace f
  keyRegs : 2 ≤ n → n ≤ 18 → (s.c, s.d) = Machine.keyRegs s.tables s.key.buf (n - 2)
  halves : 19 ≤ n → n ≤ 35 → (s.l, s.r) = Machine.halves s.tables s.pt.buf s.key.buf (n - 19)

/-- A slot field that a stage of the run has written reads as `EncryptBlock` gives it. -/
theorem State.RunAt.slot {s : State} {n : Nat} (h : s.RunAt n) {f : TField} (hf : f.words = 2)
    (hn : f.writtenAt < n) {v : BitVec 64} (hv : s.runTrace.words f = slotWords v) :
    s.slot f = v := State.slot_of_holds hf hv (h.done f hn)

/-- A stage writes the fields of its place and keeps those written before. -/
theorem State.RunAt.done_succ {s : State} {n : Nat} (h : s.RunAt n) {m : Memory}
    (hm : ∀ f : TField, (f.writtenAt ≠ n → Memory.holds s.trace s.runTrace f) →
      Memory.holds m s.runTrace f) :
    ∀ f : TField, f.writtenAt < n + 1 → Memory.holds m s.runTrace f := fun f hf =>
  hm f fun hne => h.done f (by omega)

/-- The trace of a run depends on the tables and the buffers only, and no stage changes these. -/
theorem stageEffect_runTrace (i : Instr) (s : State) :
    (stageEffect i s).runTrace = s.runTrace := by
  cases i <;> simp [State.runTrace, stageEffect, loadEffect, pc1Effect, ksEffect, ipEffect,
    rndEffect, fpEffect]

theorem runAt_load {s : State} (h : s.RunAt 0) : (loadEffect s).RunAt 1 := by
  refine ⟨?_, by omega, by omega⟩
  rw [show (loadEffect s).runTrace = s.runTrace from stageEffect_runTrace .load s]
  refine h.done_succ fun f hf => ?_
  simp only [loadEffect]
  refine Memory.holds_putAscii rfl ?_ fun h1 => Memory.holds_putAscii rfl ?_ fun h2 =>
    Memory.holds_putSlot rfl rfl fun h3 => Memory.holds_putSlot rfl rfl fun h4 => hf fun hat => ?_
  · exact congrArg asciiWords (packChars_binaryToHex _)
  · exact congrArg asciiWords (packChars_binaryToHex _)
  · cases f with
    | ptHex | keyHex | ptBin | keyBin => contradiction
    | _ => simp only [TField.writtenAt] at hat; omega

theorem runAt_pc1 {s : State} (h : s.RunAt 1) : (pc1Effect s).RunAt 2 := by
  have hslot : s.slot .keyBin = s.key.buf := h.slot rfl (by decide) rfl
  refine ⟨?_, ?_, by omega⟩
  · rw [show (pc1Effect s).runTrace = s.runTrace from stageEffect_runTrace .pc1 s]
    refine h.done_succ fun f hf => ?_
    simp only [pc1Effect, hslot]
    refine Memory.holds_putSlot rfl rfl fun h1 => hf fun hat => ?_
    cases f with
    | pc1Out => contradiction
    | _ => simp only [TField.writtenAt] at hat; omega
  · simp [pc1Effect, hslot, Machine.keyRegs]

theorem runAt_ks {s : State} {i : Fin 16} (h : s.RunAt (2 + i.val)) :
    (ksEffect i s).RunAt (2 + i.val + 1) := by
  have hreg : (s.c, s.d) = Machine.keyRegs s.tables s.key.buf i.val := by
    simpa using h.keyRegs (by omega) (by omega)
  have hg : kgRecord s.tables s.c s.d i = keyStep s.tables s.key.buf i := by
    rw [keyStep, ← hreg]
  refine ⟨?_, fun _ _ => ?_, by omega⟩
  · rw [show (ksEffect i s).runTrace = s.runTrace from stageEffect_runTrace (.ks i) s]
    refine h.done_succ fun f hf => ?_
    simp only [ksEffect, hg]
    exact holds_putKg (encrypt_steps _ _ _ i) (encrypt_ks _ _ _ i) hf
  · rw [show 2 + i.val + 1 - 2 = i.val + 1 by omega]
    simp only [ksEffect, hg, keyRegs_succ]

theorem runAt_ip {s : State} (h : s.RunAt 18) : (ipEffect s).RunAt 19 := by
  have hslot : s.slot .ptBin = s.pt.buf := h.slot rfl (by decide) rfl
  refine ⟨?_, by omega, ?_⟩
  · rw [show (ipEffect s).runTrace = s.runTrace from stageEffect_runTrace .ip s]
    refine h.done_succ fun f hf => ?_
    simp only [ipEffect, hslot]
    refine Memory.holds_putSlot rfl rfl fun h1 => hf fun hat => ?_
    cases f with
    | ipOut => contradiction
    | _ => simp only [TField.writtenAt] at hat; omega
  · simp [ipEffect, hslot, Machine.halves]

theorem runAt_rnd {s : State} {i : Fin 16} (h : s.RunAt (19 + i.val)) :
    (rndEffect i s).RunAt (19 + i.val + 1) := by
  have hslot : s.slot (.k i) = (keyStep s.tables s.key.buf i).k.setWidth 64 :=
    h.slot rfl (by simp only [TField.writtenAt]; omega)
      (congrArg (fun k : BitVec 48 => slotWords (k.setWidth 64)) (encrypt_ks _ _ _ i))
  have hreg : (s.l, s.r) = Machine.halves s.tables s.pt.buf s.key.buf i.val := by
    simpa using h.halves (by omega) (by omega)
  have hk : (s.slot (.k i)).setWidth 48 = (keyStep s.tables s.key.buf i).k := by
    rw [hslot, BitVec.setWidth_setWidth_of_le _ (by decide), BitVec.setWidth_eq]
  refine ⟨?_, by omega, fun _ _ => ?_⟩
  · rw [show (rndEffect i s).runTrace = s.runTrace from stageEffect_runTrace (.rnd i) s]
    refine h.done_succ fun f hf => ?_
    simp only [rndEffect, hk]
    refine holds_putRnd ?_ hf
    rw [State.runTrace, encrypt_rounds, roundStep, ← hreg]
  · rw [show 19 + i.val + 1 - 19 = i.val + 1 by omega]
    simp only [rndEffect, hk, halves_succ, ← hreg, roundRecord, State.noteSlot_tables,
      State.noteSlot_pt, State.noteSlot_key]

theorem runAt_fp {s : State} (h : s.RunAt 35) : (fpEffect s).RunAt 36 := by
  have hreg : (s.l, s.r) = Machine.halves s.tables s.pt.buf s.key.buf 16 := by
    simpa using h.halves (by omega) (by omega)
  have hct : permute (s.r ++ s.l) s.tables.fp = cipherText s.tables s.pt.buf s.key.buf := by
    rw [cipherText, ← hreg]
  refine ⟨?_, by omega, by omega⟩
  rw [show (fpEffect s).runTrace = s.runTrace from stageEffect_runTrace .fp s]
  refine h.done_succ fun f hf => ?_
  simp only [fpEffect, hct]
  refine Memory.holds_putAscii rfl rfl fun h1 => Memory.holds_putSlot rfl ?_ fun h2 =>
    hf fun hat => ?_
  · exact congrArg slotWords (BitVec.setWidth_eq _).symm
  · cases f with
    | ctBin | ctHex => contradiction
    | _ => simp only [TField.writtenAt] at hat; omega

/-- A stage at place `n` takes a run with `n` stages done to one with `n + 1` done. -/
theorem State.RunAt.exec_stage {i : Instr} {n : Nat} {s t : State} (h : s.RunAt n)
    (hi : stagePlace i = some n) (hb : s.busy = true) (he : exec i s = .next t) :
    t.RunAt (n + 1) := by
  have hrun : (stageEffect i s).RunAt (n + 1) := by
    cases i with
    | load => cases hi; exact runAt_load h
    | pc1 => cases hi; exact runAt_pc1 h
    | ks i => cases hi; exact runAt_ks h
    | ip => cases hi; exact runAt_ip h
    | rnd i => cases hi; exact runAt_rnd h
    | fp => cases hi; exact runAt_fp h
    | _ => simp [stagePlace] at hi
  obtain rfl := Host.Outcome.next.inj ((Machine.exec_stage hi hb).symm.trans he)
  exact ⟨hrun.done, hrun.keyRegs, hrun.halves⟩

end Sys2Proof.Machine

/-! ### The trace agreement along every step (R207, R208) -/

namespace Sys2Proof.Machine

theorem State.stagesDone_of_stagePlace {s : State} {n : Nat}
    (h : stagePlace (decodeStage s.stage) = some n) : s.stagesDone = n := by
  simp [State.stagesDone, h]

/-- Of a run that is about to `LOAD`, nothing is done. -/
theorem runAt_of_stageLoad {s : State} (h : s.stage = stageLoad) : s.RunAt s.stagesDone := by
  rw [State.stagesDone_of_stagePlace (s := s) (n := 0) (by rw [h]; decide)]
  exact ⟨by omega, by omega, by omega⟩

theorem State.TraceOk.runAt {s : State} {n : Nat} (h : s.TraceOk) (hb : s.busy = true)
    (hn : stagePlace (decodeStage s.stage) = some n) : s.RunAt n := by
  have hd := State.stagesDone_of_stagePlace hn
  exact ⟨hd ▸ h.done hb, hd ▸ h.keyRegs hb, hd ▸ h.halves hb⟩

/-- The agreement, from that of the run in progress and that of a complete trace. -/
theorem traceOk_of_runAt {s : State} (hrun : s.busy = true → s.RunAt s.stagesDone)
    (hvalid : s.valid = true → ∃ p key : BitVec 64, ∀ f : TField,
      Memory.holds s.trace (encrypt s.tables p key) f) : s.TraceOk :=
  ⟨fun hb => (hrun hb).done, fun hb => (hrun hb).keyRegs, fun hb => (hrun hb).halves, hvalid⟩

theorem State.TraceOk.assertReset {s : State} (h : s.TraceOk) : s.assertReset.TraceOk :=
  ⟨h.done, h.keyRegs, h.halves, h.valid⟩

theorem State.TraceOk.of_hostChange {s t : State} (h : s.TraceOk) (hst : HostChange s t) :
    t.TraceOk := by
  cases hst with
  | same hst => exact h.of_sameRun hst
  | inputs idle _ _ hst =>
    refine State.TraceOk.of_sameRun ?_ hst
    exact traceOk_of_runAt (fun hb => absurd (idle.symm.trans hb) Bool.false_ne_true) h.valid
  | refused idle hst =>
    refine State.TraceOk.of_sameRun ?_ hst
    exact traceOk_of_runAt (fun hb => absurd (idle.symm.trans hb) Bool.false_ne_true)
      fun hv => absurd hv Bool.false_ne_true
  | started _ _ hst =>
    refine State.TraceOk.of_sameRun ?_ hst
    exact traceOk_of_runAt (fun _ => runAt_of_stageLoad rfl) fun hv => absurd hv Bool.false_ne_true

theorem State.TraceOk.of_exec_stage {n : Nat} {s t : State} (hinv : s.Inv) (h : s.TraceOk)
    (hb : s.busy = true) (hn : stagePlace (decodeStage s.stage) = some n)
    (he : exec (decodeStage s.stage) s = .next t) : t.TraceOk := by
  have hrun : t.RunAt (n + 1) := (h.runAt hb hn).exec_stage hn hb he
  obtain ⟨t', ht', hstage, hbusy, hvalid, -⟩ := exec_stage_of_busy hn hb
  obtain rfl : t' = t := Host.Outcome.next.inj (ht'.symm.trans he)
  refine traceOk_of_runAt (fun hb' => ?_) fun hv => ?_
  · have hfp : decodeStage s.stage ≠ .fp := of_decide_eq_true (hbusy ▸ hb')
    rw [State.stagesDone_of_stagePlace (hstage ▸ stagePlace_stageSucc hn hfp)]
    exact hrun
  · have hfp : decodeStage s.stage = .fp := by simpa [hvalid, hinv.busy_not_valid hb] using hv
    obtain rfl : n = 35 := (stagePlace_bounds hn).2.1 hfp
    exact ⟨_, _, fun f => hrun.done f f.writtenAt_lt⟩

theorem State.TraceOk.of_step {s t : State} (hinv : s.Inv) (h : s.TraceOk)
    (hst : step s = .next t) : t.TraceOk := by
  have hp : s.passTurn.TraceOk := h.of_sameRun (sameRun_passTurn s)
  have hpinv : s.passTurn.Inv := hinv.of_sameRun (sameRun_passTurn s)
  obtain ⟨_, rfl⟩ | ⟨_, _, rfl⟩ | ⟨_, _, hb, he⟩ | ⟨_, _, hc⟩ | ⟨_, hs⟩ := step_change hst
  · exact hp.assertReset
  · exact (traceOk_resetWith _).of_sameRun (sameRun_afterReset _)
  · obtain ⟨n, hn⟩ := hinv.stagePlace_of_busy hb
    exact State.TraceOk.of_exec_stage hpinv hp hb hn he
  · exact h.of_hostChange hc
  · exact h.of_sameRun hs

/-- Every reachable state meets the invariants and the trace agreement. -/
theorem Reachable.inv_traceOk {s : State} (h : Reachable s) : s.Inv ∧ s.TraceOk := by
  induction h with
  | reset T program sched => exact invariantsHoldAfterReset T program sched
  | step _ hst ih => exact ⟨ih.1.of_step hst, State.TraceOk.of_step ih.1 ih.2 hst⟩

end Sys2Proof.Machine

section

open Sys2Proof Sys2Proof.Machine

/-- Settles O47: the trace agreement of reachable states, and the stage `FP` on a run with 35 stages
done. -/
theorem completedRunHoldsItsTrace : Obligations.CompletedRunHoldsItsTrace := by
  refine ⟨fun s hs hv => hs.inv_traceOk.2.valid hv, fun s hs hr hb hstage ht => ?_⟩
  have hfp : decodeStage s.stage = .fp := by rw [hstage]; decide
  have hn : stagePlace (decodeStage s.stage) = some 35 := by rw [hfp]; rfl
  obtain ⟨t, he, hst, hbusy, hvalid, htab, hpt, hkey, -⟩ :=
    exec_stage_of_busy (s := s.passTurn) hn hb
  have hp : s.passTurn.TraceOk := hs.inv_traceOk.2.of_sameRun (sameRun_passTurn s)
  have hrun : t.RunAt 36 := (hp.runAt hb hn).exec_stage hn hb he
  refine ⟨t, by rw [step_of_busy hr hb ht, he], ?_, ?_, ?_, fun f => ?_⟩
  · simp [hvalid, hfp]
  · simp [hbusy, hfp]
  · rw [hst, hfp]; rfl
  · have := hrun.done f f.writtenAt_lt
    rwa [State.runTrace, htab, hpt, hkey] at this

end

/-! ### One turn, one step (R71, R99, R206, R290) -/

namespace Sys2Proof.Machine

theorem step_of_host {s : State} (hr : s.inReset = false) (ht : s.turn = .host) :
    step s = s.passTurn.hostOperation exec := by
  simp only [step, ht, State.hostTurn_of_not_held (s := s.passTurn) hr]

/-- A host without operation passes its turn, in reset and out of it. -/
theorem step_of_host_done {s : State} (ht : s.turn = .host) (hp : s.program = []) :
    step s = .next s.passTurn := by
  cases hr : s.inReset with
  | true => exact step_of_held hr (.inl ht)
  | false => rw [step_of_host hr ht, State.hostOperation_nil (s := s.passTurn) hp]

/-- An idle engine passes its turn, in reset and out of it (R200, R206). -/
theorem step_of_engine_idle {s : State} (ht : s.turn = .engine) (hb : s.busy = false) :
    step s = .next s.passTurn := by
  cases hr : s.inReset with
  | true => exact step_of_held hr (.inr ht)
  | false =>
    simp only [step, ht, State.engineTurn_of_not_held (s := s.passTurn) hr,
      State.fetchStage_of_idle (s := s.passTurn) hb, exec, execIdle, State.passTurn_busy, hb,
      Bool.false_eq_true, if_false]

theorem step_of_assertReset {s : State} (ht : s.turn = .assertReset) :
    step s = .next s.passTurn.assertReset := by simp only [step, ht]

theorem step_of_releaseReset {s : State} (ht : s.turn = .releaseReset) :
    step s = .next s.passTurn.releaseReset := by simp only [step, ht]

/-- A read of the bus leaves the host's program (R68). -/
theorem exec_decodeHbus_read_program {off : Offset} {s t : State}
    (h : exec (decodeHbus ⟨off, 4, .read⟩) s = .next t) : t.program = s.program := by
  simp only [decodeHbus] at h
  split_ifs at h
  · obtain rfl := Host.Outcome.next.inj h; rfl
  · obtain rfl := Host.Outcome.next.inj h; rfl
  · simp only [exec, execRd] at h
    split at h
    · obtain rfl := Host.Outcome.next.inj h; exact State.noteRead_program s off
    · obtain rfl := Host.Outcome.next.inj h; rfl

end Sys2Proof.Machine

/-! ### Refused accesses (R66, R264) -/

namespace Sys2Proof.Machine

/-- An offset is a multiple of 4 exactly when its two low bits are 0. -/
theorem toNat_mod_four_ne_zero_iff (off : Offset) :
    off.toNat % 4 ≠ 0 ↔ off.getLsbD 0 = true ∨ off.getLsbD 1 = true := by
  simp only [← BitVec.testBit_toNat, Nat.testBit_succ, Nat.testBit_zero, decide_eq_true_eq]
  omega

/-- An access of another size or at another offset is refused, whatever its kind (R66, R91). -/
theorem decodeHbus_of_refused {a : BusAccess} (h : a.size ≠ 4 ∨ a.off.toNat % 4 ≠ 0) :
    decodeHbus a = .busErrorOff0 a ∨ decodeHbus a = .busErrorOff1 a := by
  rw [toNat_mod_four_ne_zero_iff, ← or_assoc] at h
  unfold decodeHbus
  by_cases h0 : a.size ≠ 4 ∨ a.off.getLsbD 0 = true
  · exact .inl (if_pos h0)
  · rw [if_neg h0, if_pos (h.resolve_left h0)]
    exact .inr rfl

end Sys2Proof.Machine

/-! ### Reads of the window (R68, R230, R291) -/

namespace Sys2Proof.Machine

theorem isTraceOffset_of_regionOf {off : Offset} (h : regionOf off = .trace) :
    isTraceOffset off.toNat = true := by
  unfold regionOf at h
  split_ifs at h
  assumption

/-- A read draws no free value where the word it reads, if a trace word, has been written (R291). -/
theorem State.noteRead_of_written {s : State} {off : Offset}
    (h : isTraceOffset off.toNat = true → (Memory.get s.trace off.toNat).isSome = true) :
    s.noteRead off = s := by
  unfold State.noteRead
  split
  · next hreg => simp [State.noteReads, h (isTraceOffset_of_regionOf hreg)]
  · rfl

/-- No word of the window depends on the recorded answer. -/
theorem State.readWord_respond (s : State) (a : Response) (off : Offset) :
    (s.respond a).readWord off = s.readWord off := rfl

theorem State.respond_respond (s : State) (a b : Response) :
    (s.respond a).respond b = s.respond b := rfl

/-- A read of a register, or of a written trace word, changes only the recorded answer (R68). -/
theorem execRd_of_written {s : State} {off : Offset}
    (h : isTraceOffset off.toNat = true → (Memory.get s.trace off.toNat).isSome = true) :
    execRd off s = .next (s.respond
      (if off.extractLsb' 0 2 = 0 then .read (s.readWord off) else .readError 0)) := by
  unfold execRd
  split
  · rw [State.noteRead_of_written h]
  · rfl

end Sys2Proof.Machine

/-! ### The trace words of the window (R61, R62, R63) -/

namespace Sys2Proof.Machine

theorem rndFieldAt_offset {n : Nat} (h : n < 0x40) : (rndFieldAt n).offset = 8 * (n / 8) := by
  unfold rndFieldAt
  split_ifs <;> simp only [RndField.offset] <;> omega

theorem kgFieldAt_offset {n : Nat} (h : n < 0x30) : (kgFieldAt n).offset = 8 * (n / 8) := by
  unfold kgFieldAt
  split_ifs <;> simp only [KgField.offset] <;> omega

/-- Every trace word is a word of the field at its offset, the converse of `fieldAt_word`. -/
theorem exists_word_fieldAt {n : Nat} (h : isTraceOffset n = true) :
    ∃ j < (fieldAt n).words, n = (fieldAt n).offset + 4 * j := by
  simp only [isTraceOffset, Bool.and_eq_true, Bool.or_eq_true, beq_iff_eq, decide_eq_true_eq] at h
  have hrnd : (rndFieldAt (n % 0x40)).offset = 8 * (n % 0x40 / 8) := rndFieldAt_offset (by omega)
  have hkg : 0x800 ≤ n → n < 0xC00 → (kgFieldAt (n % 0x40)).offset = 8 * (n % 0x40 / 8) :=
    fun _ _ => kgFieldAt_offset (by omega)
  refine ⟨(n - (fieldAt n).offset) / 4, ?_⟩
  unfold fieldAt
  split_ifs
  all_goals simp only [TField.words, TField.offset, Fin.val_ofNat]; omega

/-- A trace word lies past the registers and within the window. -/
theorem isTraceOffset_bounds {n : Nat} (h : isTraceOffset n = true) : 0x100 ≤ n ∧ n < 0xC80 := by
  simp only [isTraceOffset, Bool.and_eq_true, Bool.or_eq_true, decide_eq_true_eq] at h
  omega

theorem regionOf_ofNat_of_isTraceOffset {n : Nat} (h : isTraceOffset n = true) :
    regionOf (BitVec.ofNat 12 n) = .trace := by
  obtain ⟨hlo, hhi⟩ := isTraceOffset_bounds h
  have hn : (BitVec.ofNat 12 n).toNat = n := by rw [BitVec.toNat_ofNat]; omega
  have hne : ∀ c : Offset, c.toNat < 0x100 → BitVec.ofNat 12 n ≠ c := by
    rintro c hc rfl
    omega
  simp [regionOf, hne, hn, h]

/-- A bus read of a word of a trace field returns that trace word (R63, R230). -/
theorem State.readWord_word (s : State) {f : TField} {j : Nat} (hj : j < f.words) :
    s.readWord (BitVec.ofNat 12 (f.offset + 4 * j)) = s.traceWord (f.offset + 4 * j) := by
  have h := isTraceOffset_word hj
  have hn : (BitVec.ofNat 12 (f.offset + 4 * j)).toNat = f.offset + 4 * j := by
    have := isTraceOffset_bounds h
    rw [BitVec.toNat_ofNat]; omega
  simp only [State.readWord, regionOf_ofNat_of_isTraceOffset h, hn]

/-- The two halves of a 64-bit value, the high one first, are the value. -/
theorem append_extractLsb'_halves (v : BitVec 64) :
    v.extractLsb' 32 32 ++ v.extractLsb' 0 32 = v :=
  (BitVec.extractLsb'_append_extractLsb'_eq_extractLsb' (by decide)).trans
    BitVec.extractLsb'_eq_self

end Sys2Proof.Machine

section

open Sys2Proof Sys2Proof.Machine

/-- Settles O21: a read leaves a state that differs in the recorded answer only, which no read
depends on. -/
theorem repeatedReadReturnsTheSame : Obligations.RepeatedReadReturnsTheSame := by
  intro off s t hw hst
  obtain rfl := Host.Outcome.next.inj ((execRd_of_written hw).symm.trans hst)
  exact (execRd_of_written (by simpa using hw)).trans
    (by rw [State.readWord_respond, State.respond_respond])

/-- Settles O24, by the low bits of the offset. -/
theorem otherAccessesAreRefused : Obligations.OtherAccessesAreRefused :=
  ⟨fun _ _ => ⟨rfl, rfl⟩, fun _ => decodeHbus_of_refused⟩

/-- Settles O26: `fieldAt` names the one field a trace word belongs to. -/
theorem traceFieldsTileTheirRegions : Obligations.TraceFieldsTileTheirRegions := by
  refine ⟨fun n => ⟨fun h => ?_, ?_⟩, fun f g j k hj hk h => ?_⟩
  · exact ⟨fieldAt n, exists_word_fieldAt h⟩
  · rintro ⟨f, j, hj, rfl⟩
    exact isTraceOffset_word hj
  · obtain rfl := TField.eq_of_word_eq hj hk h
    exact ⟨rfl, by omega⟩

/-- Settles O27: both words of the slot are in the window and hold what was written. -/
theorem slotReadsBackZeroExtended : Obligations.SlotReadsBackZeroExtended := by
  intro w s f v hf _ s'
  have hhi : s'.traceWord f.offset = (v.setWidth 64).extractLsb' 32 32 := by
    simp [s', State.traceWord, Memory.get_putSlot]
  have hlo : s'.traceWord (f.offset + 4) = (v.setWidth 64).extractLsb' 0 32 := by
    simp [s', State.traceWord, Memory.get_putSlot]
  refine ⟨?_, ?_, ?_⟩
  · rw [State.slot, hhi, hlo, append_extractLsb'_halves]
  · rw [← hhi]; exact s'.readWord_word (j := 0) (by omega)
  · rw [← hlo]; exact s'.readWord_word (j := 1) (by omega)

/-- Settles O4, by the one step of each turn. -/
theorem stepRunsTheDecodedInstruction : Obligations.StepRunsTheDecodedInstruction := by
  refine ⟨fun s a ops hr ht hp => ?_, fun s t off mask val ops hr ht hp hx => ?_,
    fun s => step_of_host_done, fun s hr ht hb => step_of_busy hr hb ht, fun s => step_of_engine_idle,
fun s => step_of_held,
    fun s => step_of_assertReset, fun s ht => step_of_releaseReset ht⟩
  · rw [step_of_host hr ht, State.hostOperation_access (s := s.passTurn) hp, State.passOp,
      State.passTurn_program, hp]
    rfl
  · have htp : t.program = .poll off mask val :: ops  := by
      rw [exec_decodeHbus_read_program hx]; exact hp
    rw [step_of_host hr ht, State.hostOperation_poll (s := s.passTurn) hp hx]
    simp [pollDone, State.passOp, htp]

end

/-! ### The decoder and the encoder undo each other (R91 to R98) -/

namespace Sys2Proof

/-- An offset is aligned exactly when its two low bits are 0 (R66). -/
theorem Offset.aligned_iff (off : Offset) :
    off.aligned = true ↔ off[0] = false ∧ off[1] = false := by
  rw [Offset.aligned, beq_iff_eq, BitVec.eq_of_getLsbD_eq_iff]
  constructor
  · intro h
    exact ⟨by simpa using h 0 (by decide), by simpa using h 1 (by decide)⟩
  · rintro ⟨h0, h1⟩ i hi
    obtain rfl | rfl : i = 0 ∨ i = 1 := by omega
    · simpa using h0
    · simpa using h1

/-- A write to any other offset is ignored (R91). -/
theorem Offset.isPort_eq_false_iff (off : Offset) :
    off.isPort = false ↔ off ≠ 0x004#12 ∧ off ≠ 0x010#12 ∧ off ≠ 0x014#12 := by
  simp [Offset.isPort, and_assoc]

/-! #### Transactions, one equation per row of the order of R91 -/

theorem decodeHbus_of_off0 {a : BusAccess} (h : a.size ≠ 4 ∨ a.off[0] = true) :
    decodeHbus a = .busErrorOff0 a := by
  rw [decodeHbus, if_pos (by simpa using h)]

theorem decodeHbus_of_off1 {a : BusAccess} (hs : a.size = 4) (h0 : a.off[0] = false)
    (h1 : a.off[1] = true) : decodeHbus a = .busErrorOff1 a := by
  simp [decodeHbus, hs, h0, h1]

theorem decodeHbus_read {off : Offset} (h : off.aligned = true) :
    decodeHbus ⟨off, 4, .read⟩ = .rd off := by
  obtain ⟨h0, h1⟩ := off.aligned_iff.1 h
  simp [decodeHbus, h0, h1]

theorem decodeHbus_write_ignored {off : Offset} (h : off.aligned = true)
    (hp : off.isPort = false) (data : Word) :
    decodeHbus ⟨off, 4, .write data⟩ = .wrIgnored off data := by
  obtain ⟨h0, h1⟩ := off.aligned_iff.1 h
  obtain ⟨hctrl, hpt, hkey⟩ := off.isPort_eq_false_iff.1 hp
  simp [decodeHbus, h0, h1, hctrl, hpt, hkey]

theorem decodeHbus_write_ctrl (data : Word) :
    decodeHbus ⟨0x004, 4, .write data⟩ = .wrCtrl data := by simp [decodeHbus]

theorem decodeHbus_write_ptChar (data : Word) :
    decodeHbus ⟨0x010, 4, .write data⟩ = .wrPtChar data := by simp [decodeHbus]

theorem decodeHbus_write_keyChar (data : Word) :
    decodeHbus ⟨0x014, 4, .write data⟩ = .wrKeyChar data := by simp [decodeHbus]

/-- The instruction stands for the code word: what a decoder owes the word it reads. -/
def Instr.Encodes (i : Instr) (cw : CodeWord) : Prop := i.wellFormed = true ∧ encode i = cw

/-- Every transaction is the encoding of the row it decodes to (R91). -/
theorem decodeHbus_encodes (a : BusAccess) : (decodeHbus a).Encodes (.hbus a) := by
  by_cases hoff0 : a.size ≠ 4 ∨ a.off[0] = true
  · rw [decodeHbus_of_off0 hoff0]
    exact ⟨by simpa [Instr.wellFormed] using hoff0, rfl⟩
  obtain ⟨off, size, kind⟩ := a
  obtain ⟨rfl, h0⟩ : size = 4 ∧ off[0] = false := by simpa using hoff0
  cases h1 : off[1] with
  | true =>
    rw [decodeHbus_of_off1 rfl h0 h1]
    exact ⟨by simp [Instr.wellFormed, h0, h1], rfl⟩
  | false =>
    have hal : off.aligned = true := off.aligned_iff.2 ⟨h0, h1⟩
    cases kind with
    | read =>
      rw [decodeHbus_read hal]
      exact ⟨hal, rfl⟩
    | write data =>
      cases hp : off.isPort with
      | false =>
        rw [decodeHbus_write_ignored hal hp]
        exact ⟨by simp [Instr.wellFormed, hal, hp], rfl⟩
      | true =>
        simp only [Offset.isPort, Bool.or_eq_true, beq_iff_eq] at hp
        obtain (rfl | rfl) | rfl := hp
        · rw [decodeHbus_write_ctrl]; exact ⟨rfl, rfl⟩
        · rw [decodeHbus_write_ptChar]; exact ⟨rfl, rfl⟩
        · rw [decodeHbus_write_keyChar]; exact ⟨rfl, rfl⟩

/-! #### Command words and stage codes -/

/-- Every command code is the encoding of the command it names (R93). -/
theorem decodeCommandCode_encodes (c : BitVec 4) :
    (decodeCommandCode c).Encodes (.cmd (c.setWidth 32)) := by
  unfold Instr.Encodes
  revert c
  decide

/-- Every stage code is the encoding of the stage or the reserved row it names (R97, R98). -/
theorem decodeStage_encodes (c : BitVec 6) : (decodeStage c).Encodes (.stage c) := by
  unfold Instr.Encodes
  revert c
  decide

/-! #### Decoding an encoding -/

theorem decode_encode {i : Instr} (h : i.wellFormed = true) : decode (encode i) = i := by
  cases i with
  | rd off => exact decodeHbus_read h
  | wrCtrl data => exact decodeHbus_write_ctrl data
  | wrPtChar data => exact decodeHbus_write_ptChar data
  | wrKeyChar data => exact decodeHbus_write_keyChar data
  | wrIgnored off data =>
    obtain ⟨hal, hp⟩ : off.aligned = true ∧ off.isPort = false := by
      simpa [Instr.wellFormed] using h
    exact decodeHbus_write_ignored hal hp data
  | busErrorOff0 a => exact decodeHbus_of_off0 (by simpa [Instr.wellFormed] using h)
  | busErrorOff1 a =>
    obtain ⟨⟨hs, h0⟩, h1⟩ : (a.size = 4 ∧ a.off[0] = false) ∧ a.off[1] = true := by
      simpa [Instr.wellFormed] using h
    exact decodeHbus_of_off1 hs h0 h1
  | nop | clrPt | clrKey | clrIn | start | ack => rfl
  | cmdReserved6to7 low | cmdReserved8toF low => revert low; decide
  | idle | load | pc1 | ip | fp | stageReserved05 => rfl
  | ks i | rnd i => revert i; decide
  | stageReserved06to07 low | stageReserved08to0F low | stageReserved30to3F low =>
    revert low; decide

end Sys2Proof

section

open Sys2Proof

/-- Settles O1, by the rows of the opcode table. -/
theorem decodeOfEncodeIsTheInstruction : Obligations.DecodeOfEncodeIsTheInstruction :=
  fun _ => decode_encode

/-- Settles O2: a transaction by the row that the order of R91 gives it, commands and stages code by
code. -/
theorem encodeOfDecodeIsTheCode : Obligations.EncodeOfDecodeIsTheCode :=
  ⟨decodeHbus_encodes, fun w => decodeCommandCode_encodes (commandCode w), decodeStage_encodes⟩

/-- Settles O3, by running the decoder on the twelve words. -/
theorem writtenOutWordsDecode : Obligations.WrittenOutWordsDecode := by
  unfold Obligations.WrittenOutWordsDecode
  decide

end

/-! ### The datapath operations, position by position (R10, R126, R128, R130, R131) -/

namespace Sys2Proof.Machine

/-- Position `p` of a value is a bit of it, counted from the left (R10). -/
theorem pos_eq_getLsbD {w p : Nat} (v : BitVec w) (h1 : 1 ≤ p) (hp : p ≤ w) :
    pos v p = v.getLsbD (w - p) := if_pos ⟨h1, hp⟩

/-- The number that the digits of a list write, first digit most significant, has the digit of
entry `k` at place `k` from the left. -/
theorem testBit_foldl_digits {α : Type} (digit : α → Bool) (l : List α) {k : Nat}
    (hk : k < l.length) :
    (l.foldl (fun acc a => 2 * acc + (digit a).toNat) 0).testBit (l.length - (k + 1)) =
      digit l[k] := by
  simp only [← Nat.bit_val]
  induction l using List.reverseRecOn with
  | nil => simp at hk
  | append_singleton l a ih =>
    simp only [List.length_append, List.length_singleton] at hk
    rw [List.foldl_append, List.foldl_cons, List.foldl_nil]
    by_cases hlt : k < l.length
    · have hexp : (l ++ [a]).length - (k + 1) = (l.length - (k + 1)) + 1 := by simp; omega
      rw [List.getElem_append_left hlt, ← ih hlt, hexp, Nat.testBit_bit_succ]
    · obtain rfl : k = l.length := by omega
      have hexp : (l ++ [a]).length - (l.length + 1) = 0 := by simp
      rw [List.getElem_concat_length rfl, hexp, Nat.testBit_bit_zero]

/-- R126: output position `j + 1` is the input position that entry `j` of the table names. -/
theorem pos_permute {w m : Nat} (v : BitVec w) (t : Vector (BitVec 7) m) {j : Nat} (hj : j < m) :
    pos (permute v t) (j + 1) = pos v t[j].toNat := by
  have hbit := testBit_foldl_digits (fun p : BitVec 7 => pos v p.toNat) t.toList (k := j) (by simpa)
  simp only [Vector.length_toList, Vector.getElem_toList] at hbit
  rw [pos_eq_getLsbD _ (by omega) hj, permute, BitVec.getLsbD_ofNat, hbit,
    decide_eq_true (by omega), Bool.true_and]

/-- In the range of R128 the rotation is the library's. -/
theorem rotl28_eq_rotateLeft (x : BitVec 28) {k : Nat} (hk : k ≤ 27) :
    rotl28 x k = x.rotateLeft k := by
  rw [rotl28, if_pos hk, BitVec.rotateLeft_eq_rotateLeftAux_of_lt (by omega)]
  rfl

/-- R128: the lowest `k` bits of the result are those that wrap. -/
theorem pos_rotl28 (x : BitVec 28) {k p : Nat} (hk : k ≤ 27) (h1 : 1 ≤ p) (hp : p ≤ 28) :
    pos (rotl28 x k) p = pos x ((p - 1 + k) % 28 + 1) := by
  rw [rotl28_eq_rotateLeft x hk, pos_eq_getLsbD _ h1 hp, pos_eq_getLsbD _ (by omega) (by omega),
    BitVec.getLsbD_rotateLeft_of_le (by omega)]
  have hbit : 28 - p < 28 := by omega
  by_cases hw : 28 - p < k
  · have hpos : 28 - ((p - 1 + k) % 28 + 1) = 28 - k + (28 - p) := by omega
    simp [hw, hpos]
  · have hpos : 28 - ((p - 1 + k) % 28 + 1) = 28 - p - k := by omega
    simp [hw, hpos, hbit]

/-- Group `g` of a substitution is the lookup of group `g` of its input (R131). -/
theorem extractLsb'_substitute (T : Tables) (x : BitVec 48) (g : Fin 8) :
    (substitute T x).extractLsb' (28 - 4 * g.val) 4 =
      sboxLookup T g (x.extractLsb' (42 - 6 * g.val) 6) := by
  unfold substitute
  fin_cases g
  all_goals
    simp (disch := omega) only [BitVec.extractLsb'_append_eq_of_le,
      BitVec.extractLsb'_append_eq_of_add_le]
    exact BitVec.extractLsb'_eq_self

theorem toNat_sboxRow (b : BitVec 6) :
    (sboxRow b).toNat = 2 * (b.getLsbD 5).toNat + (b.getLsbD 0).toNat := by
  revert b
  decide

theorem toNat_sboxCol (b : BitVec 6) :
    (sboxCol b).toNat = 8 * (b.getLsbD 4).toNat + 4 * (b.getLsbD 3).toNat +
      2 * (b.getLsbD 2).toNat + (b.getLsbD 1).toNat := by
  revert b
  decide

/-- A lookup is the entry of the S-box in the group's row and column, which it always has (R130). -/
theorem sbox_entry_eq_sboxLookup (T : Tables) (g : Fin 8) (b : BitVec 6) :
    (((T.sbox[g])[(sboxRow b).toNat]?).bind fun r => r[(sboxCol b).toNat]?) =
      some (sboxLookup T g b) := by
  rw [Vector.getElem?_eq_getElem (sboxRow b).isLt, Option.bind_some,
    Vector.getElem?_eq_getElem (sboxCol b).isLt]
  rfl

end Sys2Proof.Machine

/-! ### Hex conversion (R121 to R124) -/

namespace Sys2Proof.Machine

/-- The digit of a character's value is the character in upper case (R121, R124). -/
theorem asciiHexDigit_hexDigit : ∀ {ch : Char8}, isHex ch = true →
    asciiHexDigit (hexDigit ch) = upper ch := by
  decide

theorem hexToBinary_of_isHex {s : List Char8} (h : s.all isHex = true) :
    hexToBinary s = .ok (BitVec.ofNat (4 * s.length) (hexNat s)) := if_pos h

/-- Digit `k` of the binary value of a string is that of its character `k` (R122, R123). -/
theorem extractLsb'_ofNat_hexNat (s : List Char8) {k : Nat} (hk : k < s.length) :
    (BitVec.ofNat (4 * s.length) (hexNat s)).extractLsb' (4 * s.length - 4 - 4 * k) 4 =
      hexDigit s[k] := by
  have hlt : hexNat s < 2 ^ (4 * s.length) := by simpa [Nat.pow_mul] using hexNat_lt s
  have hsh : 4 * s.length - 4 - 4 * k = 4 * (s.length - 1 - k) := by omega
  apply BitVec.eq_of_toNat_eq
  rw [BitVec.extractLsb'_toNat, BitVec.toNat_ofNat, Nat.mod_eq_of_lt hlt,
    Nat.shiftRight_eq_div_pow, hsh, Nat.pow_mul, ← hexNat_digit s hk]

end Sys2Proof.Machine

section

open Sys2Proof Sys2Proof.Machine

/-- Settles O51, digit by digit of the number that the permutation writes. -/
theorem permutationMovesPositions : Obligations.PermutationMovesPositions :=
  fun _ _ v t j => pos_permute v t j.isLt

/-- Settles O52, by the bits that shift and the bits that wrap. -/
theorem rotationWrapsLeadingBits : Obligations.RotationWrapsLeadingBits :=
  fun x _ _ hk h1 hp => pos_rotl28 x hk h1 hp

/-- Settles O53: the row and the column that the group's bits write out are those of the lookup. -/
theorem substitutionLooksUpEachGroup : Obligations.SubstitutionLooksUpEachGroup := by
  intro T x g b row col
  rw [extractLsb'_substitute, ← sbox_entry_eq_sboxLookup, toNat_sboxRow, toNat_sboxCol]

/-- Settles O54: each digit of the value is that of its character, and is written in upper case. -/
theorem hexConversionRoundTrip : Obligations.HexConversionRoundTrip := by
  intro str h
  refine ⟨_, hexToBinary_of_isHex h, List.ext_getElem (by simp [binaryToHex]) fun k hk _ => ?_⟩
  have hlt : k < str.length := by simpa [binaryToHex] using hk
  have hx : isHex str[k] = true := List.all_eq_true.1 h _ (List.getElem_mem hlt)
  simp only [binaryToHex, List.getElem_map, List.getElem_range, extractLsb'_ofNat_hexNat str hlt,
    asciiHexDigit_hexDigit hx]

end

/-! ### What a permutation reads of its input (R126) -/

namespace Sys2Proof.Machine

/-- A value is known by its positions (R10). -/
theorem eq_of_pos_eq {w : Nat} {v v' : BitVec w} (h : ∀ j < w, pos v (j + 1) = pos v' (j + 1)) :
    v = v' := by
  refine BitVec.eq_of_getLsbD_eq fun i hi => ?_
  have hpos := h (w - 1 - i) (by omega)
  have hbit : w - (w - 1 - i + 1) = i := by omega
  rwa [pos_eq_getLsbD _ (by omega) (by omega), pos_eq_getLsbD _ (by omega) (by omega), hbit] at hpos

/-- A permutation reads no position but those its table names. -/
theorem permute_congr {w m : Nat} {v v' : BitVec w} {t : Vector (BitVec 7) m}
    (h : ∀ j : Fin m, pos v t[j].toNat = pos v' t[j].toNat) : permute v t = permute v' t :=
  eq_of_pos_eq fun j hj => by rw [pos_permute v t hj, pos_permute v' t hj]; exact h ⟨j, hj⟩

/-- The table `u` undoes the table `t` when each entry of `u` names the place in `t` of its own
position. -/
theorem permute_permute_of_inverse {w m : Nat} (v : BitVec w) {t : Vector (BitVec 7) m}
    {u : Vector (BitVec 7) w} (h : ∀ j : Fin w, ∃ k : Fin m, u[j].toNat = k + 1 ∧ t[k].toNat = j + 1) :
    permute (permute v t) u = v := by
  refine eq_of_pos_eq fun j hj => ?_
  obtain ⟨k, hu, ht⟩ := h ⟨j, hj⟩
  calc pos (permute (permute v t) u) (j + 1)
      = pos (permute v t) u[j].toNat := pos_permute _ u hj
    _ = pos (permute v t) (k + 1) := congrArg _ hu
    _ = pos v t[k].toNat := pos_permute v t k.isLt
    _ = pos v (j + 1) := congrArg _ ht

/-- Two values that agree under a mask agree at every position the mask holds. -/
theorem pos_eq_of_and_eq {w p : Nat} {v v' mask : BitVec w} (h : v &&& mask = v' &&& mask)
    (h1 : 1 ≤ p) (hp : p ≤ w) (hmask : pos mask p = true) : pos v p = pos v' p := by
  have hbit := congrArg (BitVec.getLsbD · (w - p)) h
  rw [pos_eq_getLsbD _ h1 hp] at hmask
  rw [pos_eq_getLsbD _ h1 hp, pos_eq_getLsbD _ h1 hp]
  simpa [hmask] using hbit

end Sys2Proof.Machine

/-! ### What a run reads of its key (R160, R162, R205) -/

namespace Sys2Proof.Machine

/-- The key schedule reads of the key its `PC1` image alone. -/
theorem keyRegs_congr {T : Tables} {key key' : BitVec 64}
    (h : permute key T.pc1 = permute key' T.pc1) (n : Nat) : keyRegs T key n = keyRegs T key' n := by
  induction n with
  | zero => simp only [keyRegs, h]
  | succ n ih => simp only [keyRegs, ih]

theorem keyStep_congr {T : Tables} {key key' : BitVec 64}
    (h : permute key T.pc1 = permute key' T.pc1) : keyStep T key = keyStep T key' :=
  funext fun i => by simp only [keyStep, keyRegs_congr h]

/-- The rounds read of the key its subkeys alone. -/
theorem halves_congr {T : Tables} {p key key' : BitVec 64} (h : keyStep T key = keyStep T key')
    (n : Nat) : halves T p key n = halves T p key' n := by
  induction n with
  | zero => rfl
  | succ n ih => simp only [halves, ih, h]

end Sys2Proof.Machine

/-! ### The reference tables, entry by entry (R151) -/

namespace Sys2Proof

open Sys2Proof.Machine

set_option maxRecDepth 4000

/-- R151 (a): every entry lies in its range. -/
theorem desTables_wellFormed : desTables.wellFormed = true := by decide

/-- R151 (b): `IP` holds every value once. -/
theorem desIp_count : ∀ n ∈ List.range' 1 64, desIp.toList.count (BitVec.ofNat 7 n) = 1 := by decide

/-- R151 (b): `FP` holds every value once. -/
theorem desFp_count : ∀ n ∈ List.range' 1 64, desFp.toList.count (BitVec.ofNat 7 n) = 1 := by decide

/-- R151 (b): `P` holds every value once. -/
theorem desP_count : ∀ n ∈ List.range' 1 32, desP.toList.count (BitVec.ofNat 7 n) = 1 := by decide

/-- R151 (c): entry `j` of `FP` names the place of `j` in `IP`. -/
theorem desFp_inverse_desIp (j : Fin 64) :
    ∃ k : Fin 64, desFp[j].toNat = k + 1 ∧ desIp[k].toNat = j + 1 := by
  revert j
  decide

/-- R151 (d): the two edge positions of each group of four appear twice in `E`. -/
theorem desE_count : ∀ n ∈ List.range' 1 32, desE.toList.count (BitVec.ofNat 7 n) =
    if n ∈ [1, 4, 5, 8, 9, 12, 13, 16, 17, 20, 21, 24, 25, 28, 29, 32] then 2 else 1 := by decide

/-- R151 (e): `PC1` holds every value once, but for the parity positions. -/
theorem desPc1_count : ∀ n ∈ List.range' 1 64,
    desPc1.toList.count (BitVec.ofNat 7 n) = if n % 8 = 0 then 0 else 1 := by decide

/-- R151 (e): the positions that `PC1` reads all lie in the mask that leaves out the low bit of each
byte. -/
theorem desPc1_in_mask (j : Fin 56) : 1 ≤ desPc1[j].toNat ∧ desPc1[j].toNat ≤ 64 ∧
    pos (0xFEFEFEFEFEFEFEFE : BitVec 64) desPc1[j].toNat = true := by
  revert j
  decide

/-- R151 (f): `PC2` holds every value once, but for the eight named. -/
theorem desPc2_count : ∀ n ∈ List.range' 1 56, desPc2.toList.count (BitVec.ofNat 7 n) =
    if n ∈ [9, 18, 22, 25, 35, 38, 43, 54] then 0 else 1 := by decide

/-- R151 (g): each row of each S-box holds every value once. -/
theorem desSbox_row_count (g : Fin 8) (r : Fin 4) (v : BitVec 4) :
    (desTables.sbox[g])[r].toList.count v = 1 := by
  revert g r v
  decide

/-- R151 (h): the rotations add up to a full turn. -/
theorem desShifts_sum : (desShifts.toList.map BitVec.toNat).sum = 28 := by decide

/-- R151 (e): the parity bits do not reach the `PC1` image of a key. -/
theorem permute_desPc1_of_and_eq {key key' : BitVec 64}
    (h : key &&& 0xFEFEFEFEFEFEFEFE = key' &&& 0xFEFEFEFEFEFEFEFE) :
    permute key desTables.pc1 = permute key' desTables.pc1 := by
  refine permute_congr fun j => ?_
  obtain ⟨h1, hp, hmask⟩ := desPc1_in_mask j
  exact pos_eq_of_and_eq h h1 hp hmask

end Sys2Proof

section

open Sys2Proof Sys2Proof.Machine

/-- Settles O56: by R151 (c) the two tables undo each other position by position. -/
theorem finalPermutationUndoesInitial : Obligations.FinalPermutationUndoesInitial :=
  fun x => permute_permute_of_inverse x desFp_inverse_desIp

/-- Settles O58: `PC1` drops the parity bits, and both results read of the key its `PC1` image
alone. -/
theorem parityBitsDoNotMatter : Obligations.ParityBitsDoNotMatter := by
  intro p key key' h
  have hstep : keyStep desTables key = keyStep desTables key' :=
    keyStep_congr (permute_desPc1_of_and_eq h)
  exact ⟨by simp only [keySchedule, hstep], by simp only [cipherText, halves_congr hstep]⟩

/-- Settles O55, table by table. -/
theorem referenceTableProperties : Obligations.ReferenceTableProperties := by
  refine ⟨desTables_wellFormed, fun n hn => ⟨desIp_count n hn, desFp_count n hn⟩,
    fun n hn => ⟨desP_count n hn, desE_count n hn⟩, desPc1_count, desPc2_count,
    fun box hbox row hrow v => ?_, desShifts_sum⟩
  obtain ⟨g, hg, rfl⟩ := Vector.getElem_of_mem (Vector.mem_toList_iff.1 hbox)
  obtain ⟨r, hr, rfl⟩ := Vector.getElem_of_mem (Vector.mem_toList_iff.1 hrow)
  exact desSbox_row_count ⟨g, hg⟩ ⟨r, hr⟩ v

end

/-! ### What a slot write leaves in each field (R62, R63) -/

namespace Sys2Proof.Machine

open Sys2Proof.Statements

/-- Every field has the two words of a slot (R62, R64). -/
theorem TField.two_le_words (f : TField) : 2 ≤ f.words := by
  cases f with
  | ptHex | keyHex | ctHex => decide
  | _ => exact le_rfl

/-- A slot write changes no word but the first two of its field. -/
theorem Memory.get_putSlot_of_ne {w : Nat} {m : Memory} {f : TField} {v : BitVec w} {a : Nat}
    (h : ∀ j < f.words, a ≠ f.offset + 4 * j) :
    Memory.get (Memory.putSlot m f v) a = Memory.get m a :=
  Memory.get_storeWords_of_ne fun j hj => h j (lt_of_lt_of_le hj f.two_le_words)

@[simp] theorem slotHolds_putSlot_self {w : Nat} (m : Memory) (f : TField) (v : BitVec w) :
    SlotHolds (Memory.putSlot m f v) f v := by
  simp [SlotHolds, Memory.get_putSlot]

/-- A slot write leaves what another field holds. -/
@[simp] theorem slotHolds_putSlot_of_ne {w w' : Nat} {m : Memory} {f g : TField} {v : BitVec w}
    {u : BitVec w'} (hne : g ≠ f) : SlotHolds (Memory.putSlot m f v) g u ↔ SlotHolds m g u := by
  have hword : ∀ k < g.words, Memory.get (Memory.putSlot m f v) (g.offset + 4 * k) =
      Memory.get m (g.offset + 4 * k) := fun k hk =>
    Memory.get_putSlot_of_ne fun _ hj h => hne (TField.eq_of_word_eq hk hj h)
  have h0 := hword 0 (lt_of_lt_of_le two_pos g.two_le_words)
  have h1 := hword 1 g.two_le_words
  rw [Nat.mul_zero, Nat.add_zero] at h0
  rw [Nat.mul_one] at h1
  rw [SlotHolds, SlotHolds, h0, h1]

theorem sameOutside_refl (m : Memory) (fs : List TField) : SameOutside m m fs := fun _ _ => rfl

/-- The write of one of the fields changes no word outside them. -/
theorem sameOutside_putSlot {w : Nat} {m m' : Memory} {fs : List TField} {f : TField} {v : BitVec w}
    (h : SameOutside m m' fs) (hmem : f ∈ fs) : SameOutside m (Memory.putSlot m' f v) fs :=
  fun a ha => (Memory.get_putSlot_of_ne (ha f hmem)).trans (h a ha)

/-- A read of a slot field that has been written uses up no draw (R291). -/
theorem State.noteSlot_draws_of_written {s : State} {f : TField} (h : SlotWritten s.trace f) :
    (s.noteSlot f).draws = s.draws := by
  simp [State.noteSlot, h.1, h.2]

end Sys2Proof.Machine

/-! ### The stages of the key schedule (R160, R161) -/

namespace Sys2Proof.Machine

open Sys2Proof.Statements

/-- A key-generation record and its subkey stand in their seven slots. -/
theorem slotHolds_putKg (m : Memory) (i : Fin 16) (g : KgRecord) :
    SlotHolds (putKg m i g) (.kg .cBefore i) g.cBefore ∧
    SlotHolds (putKg m i g) (.kg .dBefore i) g.dBefore ∧
    SlotHolds (putKg m i g) (.kg .shift i) g.shift ∧
    SlotHolds (putKg m i g) (.kg .cAfter i) g.cAfter ∧
    SlotHolds (putKg m i g) (.kg .dAfter i) g.dAfter ∧
    SlotHolds (putKg m i g) (.kg .k i) g.k ∧
    SlotHolds (putKg m i g) (.k i) g.k := by
  simp [putKg]

/-- Writing record `i` and its subkey changes no word outside their seven slots. -/
theorem sameOutside_putKg (m : Memory) (i : Fin 16) (g : KgRecord) :
    SameOutside m (putKg m i g) [.kg .cBefore i, .kg .dBefore i, .kg .shift i, .kg .cAfter i,
      .kg .dAfter i, .kg .k i, .k i] := by
  unfold putKg
  iterate 7 refine sameOutside_putSlot ?_ (by simp)
  exact sameOutside_refl m _

/-- The successor of `KS(i+1)` by its code (R97, R206). -/
theorem ksSucc_eq (i : Fin 16) :
    ksSucc i = if i.val < 15 then BitVec.ofNat 6 (0x10 + i.val + 1) else 0x03 := by
  revert i
  decide

end Sys2Proof.Machine

/-! ### The key registers after `n` steps (R128, R162, R163) -/

namespace Sys2Proof

/-- The entries of a table that passes its check lie in the range checked (R150). -/
theorem entriesIn_getElem {w m hi : Nat} {t : Vector (BitVec w) m} (h : entriesIn t hi = true)
    (j : Fin m) : 1 ≤ t[j].toNat ∧ t[j].toNat ≤ hi := by
  have hj := List.all_eq_true.1 h t[j] (Vector.mem_toList_iff.2 (Vector.getElem_mem j.isLt))
  simpa using hj

/-- In well-formed tables every amount is one that `rotl28` can rotate by (R128, R150). -/
theorem Tables.shift_le_of_wellFormed {T : Tables} (h : T.wellFormed = true) (i : Fin 16) :
    T.shifts[i].toNat ≤ 27 := by
  simp only [Tables.wellFormed, Bool.and_eq_true] at h
  exact (entriesIn_getElem h.2 i).2

/-- The sum of the first `n` amounts of `SHIFTS`. -/
def Tables.shiftTotal (T : Tables) (n : Nat) : Nat :=
  ((T.shifts.toList.map BitVec.toNat).take n).sum

theorem Tables.shiftTotal_succ (T : Tables) (i : Fin 16) :
    T.shiftTotal (i.val + 1) = T.shiftTotal i.val + T.shifts[i].toNat := by
  simp only [Tables.shiftTotal]
  rw [List.sum_take_succ _ _ (by simp)]
  simp

namespace Machine

theorem rotl28_zero (x : BitVec 28) : rotl28 x 0 = x := by
  simp [rotl28, BitVec.ushiftRight_eq_zero]

/-- Two rotations in a row are one by their sum, as 28 positions make a full turn. -/
theorem rotl28_rotl28 (x : BitVec 28) {a b : Nat} (ha : a ≤ 27) (hb : b ≤ 27) :
    rotl28 (rotl28 x a) b = rotl28 x ((a + b) % 28) := by
  refine eq_of_pos_eq fun j hj => ?_
  rw [pos_rotl28 _ hb (by omega) (by omega), pos_rotl28 _ ha (by omega) (by omega),
    pos_rotl28 _ (by omega) (by omega) (by omega)]
  congr 1
  omega

/-- After `n` steps each key register is its start rotated by the sum of the first `n` amounts. -/
theorem keyRegs_eq_rotl28 {T : Tables} (hT : T.wellFormed = true) (key : BitVec 64) {n : Nat}
    (hn : n ≤ 16) :
    keyRegs T key n = (rotl28 (keyRegs T key 0).1 (T.shiftTotal n % 28),
      rotl28 (keyRegs T key 0).2 (T.shiftTotal n % 28)) := by
  induction n with
  | zero => simp [Tables.shiftTotal, rotl28_zero]
  | succ n ih =>
    have hsh := Tables.shift_le_of_wellFormed hT ⟨n, hn⟩
    rw [keyRegs_succ T key ⟨n, hn⟩, Tables.shiftTotal_succ T ⟨n, hn⟩]
    simp only [keyStep, kgRecord, ih (by omega)]
    rw [rotl28_rotl28 _ (by omega) hsh, rotl28_rotl28 _ (by omega) hsh, Nat.mod_add_mod]

/-- Amounts that add up to a full turn bring the key registers back to their start (R163). -/
theorem keyRegs_sixteen {T : Tables} (hT : T.wellFormed = true)
    (hsum : (T.shifts.toList.map BitVec.toNat).sum = 28) (key : BitVec 64) :
    keyRegs T key 16 = keyRegs T key 0 := by
  have htotal : T.shiftTotal 16 = 28 := by
    rw [Tables.shiftTotal, List.take_of_length_le (by simp), hsum]
  rw [keyRegs_eq_rotl28 hT key le_rfl, htotal, rotl28_zero, rotl28_zero]

end Machine

end Sys2Proof

section

open Sys2Proof Sys2Proof.Machine

/-- Settles O29: `PC1` writes one slot field and reads another. -/
theorem pc1Stage : Obligations.Pc1Stage := by
  intro s hb k56
  refine ⟨_, exec_stage rfl hb, ?_, fun hw => State.noteSlot_draws_of_written hw,
    slotHolds_putSlot_self _ _ _, sameOutside_putSlot (sameOutside_refl _ _) (by simp)⟩
  simp [stageEffect, pc1Effect, stageSucc, stageKs, first, last, k56]

/-- Settles O30: `KS(i+1)` writes the record of its step, whose values are those of `C` and `D`
before and after the rotation. -/
theorem ksStage : Obligations.KsStage := by
  intro i s hb sh c1 d1 k
  have htrace : (stageEffect (.ks i) s).trace = putKg s.trace i ⟨s.c, s.d, sh, c1, d1, k⟩ := rfl
  obtain ⟨hc, hd, hsh, hc1, hd1, hk, hki⟩ := slotHolds_putKg s.trace i ⟨s.c, s.d, sh, c1, d1, k⟩
  refine ⟨_, exec_stage (i := .ks i) rfl hb, ?_, ?_⟩
  · rw [← ksSucc_eq]
    rfl
  · simp only [htrace]
    exact ⟨hc, hd, hsh, hc1, hd1, hk, hki, sameOutside_putKg _ _ _⟩

/-- Settles O57: the amounts of `DES_TABLES` add up to a full turn. -/
theorem keyRegistersReturnToStart : Obligations.KeyRegistersReturnToStart :=
  keyRegs_sixteen desTables_wellFormed desShifts_sum

end

/-! ### The stages of the rounds (R181 to R187) -/

namespace Sys2Proof.Machine

open Sys2Proof.Statements

/-- A round record stands in its eight slots. -/
theorem slotHolds_putRnd (m : Memory) (i : Fin 16) (g : RoundRecord) :
    SlotHolds (putRnd m i g) (.rnd .l i) g.l ∧
    SlotHolds (putRnd m i g) (.rnd .r i) g.r ∧
    SlotHolds (putRnd m i g) (.rnd .exp i) g.exp ∧
    SlotHolds (putRnd m i g) (.rnd .k i) g.k ∧
    SlotHolds (putRnd m i g) (.rnd .xor i) g.xor ∧
    SlotHolds (putRnd m i g) (.rnd .sbox i) g.sbox ∧
    SlotHolds (putRnd m i g) (.rnd .pbox i) g.pbox ∧
    SlotHolds (putRnd m i g) (.rnd .newr i) g.newr := by
  simp [putRnd]

/-- Writing record `i` changes no word outside its eight slots. -/
theorem sameOutside_putRnd (m : Memory) (i : Fin 16) (g : RoundRecord) :
    SameOutside m (putRnd m i g) [.rnd .l i, .rnd .r i, .rnd .exp i, .rnd .k i, .rnd .xor i,
      .rnd .sbox i, .rnd .pbox i, .rnd .newr i] := by
  unfold putRnd
  iterate 8 refine sameOutside_putSlot ?_ (by simp)
  exact sameOutside_refl m _

/-- The successor of `RND(i+1)` by its code (R97, R206). -/
theorem rndSucc_eq (i : Fin 16) :
    rndSucc i = if i.val < 15 then BitVec.ofNat 6 (0x20 + i.val + 1) else 0x04 := by
  revert i
  decide

end Sys2Proof.Machine

/-! ### The chain of the round records (R186, R188, R205) -/

namespace Sys2Proof.Machine

/-- The output of the P-box is the round function of the right half and the subkey (R184). -/
theorem roundStep_pbox (T : Tables) (p key : BitVec 64) (i : Fin 16) :
    (roundStep T p key i).pbox = feistel T (roundStep T p key i).r (roundStep T p key i).k := rfl

/-- The new right half is the left half combined with the P-box output (R185, R186). -/
theorem roundStep_newr (T : Tables) (p key : BitVec 64) (i : Fin 16) :
    (roundStep T p key i).newr = (roundStep T p key i).l ^^^ (roundStep T p key i).pbox := rfl

/-- After a round the halves are the right half before it and the new right half it recorded. -/
theorem halves_succ_eq_roundStep (T : Tables) (p key : BitVec 64) (i : Fin 16) :
    halves T p key (i.val + 1) = ((roundStep T p key i).r, (roundStep T p key i).newr) :=
  halves_succ T p key i

/-- A round record starts from the halves that the round before it recorded (R188). -/
theorem roundStep_halves_of_succ (T : Tables) (p key : BitVec 64) {i j : Fin 16}
    (h : j.val + 1 = i.val) :
    (roundStep T p key i).l = (roundStep T p key j).r ∧
    (roundStep T p key i).r = (roundStep T p key j).newr := by
  have hin : ((roundStep T p key i).l, (roundStep T p key i).r) = halves T p key i.val := rfl
  rw [← h, halves_succ_eq_roundStep] at hin
  exact Prod.mk.inj hin

/-- The pre-output is the new right half of the last round before its right half (R204). -/
theorem cipherText_eq_roundStep (T : Tables) (p key : BitVec 64) {i : Fin 16} (h : i.val = 15) :
    cipherText T p key =
      permute ((roundStep T p key i).newr ++ (roundStep T p key i).r) T.fp := by
  have hout := halves_succ_eq_roundStep T p key i
  rw [h] at hout
  rw [cipherText, hout]

end Sys2Proof.Machine

section

open Sys2Proof Sys2Proof.Machine

/-- Settles O32: `RND(i+1)` writes the record of its round, whose values are those of `L`, `R` and
the subkey read before it. -/
theorem rndStage : Obligations.RndStage := by
  intro i s hb k exp mix sub pbox newr
  have hright : (stageEffect (.rnd i) s).r = newr := rfl
  have htrace : (stageEffect (.rnd i) s).trace =
    putRnd s.trace i ⟨s.l, s.r, exp, k, mix, sub, pbox, newr⟩ := rfl
  obtain ⟨hl, hr, hexp, hk, hxor, hsbox, hpbox, hnewr⟩ :=
    slotHolds_putRnd s.trace i ⟨s.l, s.r, exp, k, mix, sub, pbox, newr⟩
  refine ⟨_, exec_stage (i := .rnd i) rfl hb, ?_, fun hw => State.noteSlot_draws_of_written hw, ?_⟩
  · rw [← rndSucc_eq, ← hright]
    simp [stageEffect, rndEffect, stageSucc]
  · simp only [htrace]
    exact ⟨hl, hr, hexp, hk, hxor, hsbox, hpbox, hnewr, sameOutside_putRnd _ _ _⟩

/-- Settles O59: within a record the values are those of `Round` (R184, R186), and each record's
halves are those the round before it left (R188). -/
theorem roundRecordsChain : Obligations.RoundRecordsChain := by
  intro T p key i
  simp only [encrypt_rounds, encrypt_ks, encrypt_steps]
  exact ⟨roundStep_newr T p key i, roundStep_pbox T p key i, rfl, rfl, fun _ h => roundStep_halves_of_succ T p key h,
    cipherText_eq_roundStep T p key⟩

end

section

open Sys2Proof Sys2Proof.Machine

/-- Settles O45, by the cases of a step. -/
theorem everyStepKeepsTheTraceAgreement : Obligations.EveryStepKeepsTheTraceAgreement :=
  fun _ _ hinv h hst => State.TraceOk.of_step hinv h hst

end

/-! ### What the write of an ASCII field leaves in each field (R64, R201) -/

namespace Sys2Proof.Machine

open Sys2Proof.Statements

theorem packChars_concat (s : List Char8) (ch : Char8) :
    packChars (s ++ [ch]) = (packChars s <<< 8) ||| ch.setWidth 128 := by
  simp [packChars, List.foldl_append]

/-- Character `k` of at most sixteen stands at its place in the packed value (R64). -/
theorem extractLsb'_packChars {s : List Char8} (hlen : s.length ≤ 16) {k : Nat}
    (hk : k < s.length) :
    (packChars s).extractLsb' (8 * (s.length - 1 - k)) 8 = s[k] := by
  induction s using List.reverseRecOn with
  | nil => simp at hk
  | append_singleton s ch ih =>
    simp only [List.length_append, List.length_singleton] at hlen hk
    rw [packChars_concat]
    refine BitVec.eq_of_getLsbD_eq fun i hi => ?_
    simp only [BitVec.getLsbD_extractLsb', BitVec.getLsbD_or, BitVec.getLsbD_shiftLeft,
      BitVec.getLsbD_setWidth, List.length_append, List.length_singleton, hi, decide_true,
      Bool.true_and]
    by_cases hlt : k < s.length
    · have hbit : 8 * (s.length + 1 - 1 - k) + i = 8 * (s.length - 1 - k) + i + 8 := by omega
      have hch : ch.getLsbD (8 * (s.length - 1 - k) + i + 8) = false :=
        BitVec.getLsbD_of_ge _ _ (by omega)
      rw [List.getElem_append_left hlt, ← ih (by omega) hlt, hbit, hch]
      simp [hi]
      omega
    · obtain rfl : k = s.length := by omega
      rw [List.getElem_concat_length rfl]
      simp [hi]
      omega

/-- Character `k` of an ASCII field is the digit of the value's hex digit `k` (R201). -/
theorem extractLsb'_asciiHex16 (v : BitVec 64) {k : Nat} (hk : k < 16) :
    (asciiHex16 v).extractLsb' (120 - 8 * k) 8 = asciiHexDigit (v.extractLsb' (60 - 4 * k) 4) := by
  have hlen : (binaryToHex (n := 16) v).length = 16 := by simp [binaryToHex]
  have hchar := extractLsb'_packChars hlen.le (hlen.symm ▸ hk)
  have hplace : 8 * ((binaryToHex (n := 16) v).length - 1 - k) = 120 - 8 * k := by omega
  rw [packChars_binaryToHex, hplace] at hchar
  rw [hchar]
  simp [binaryToHex]

/-- A word is its four bytes side by side. -/
theorem extractLsb'_bytes {w : Nat} (v : BitVec w) (a : Nat) :
    v.extractLsb' (a + 24) 8 ++ v.extractLsb' (a + 16) 8 ++ v.extractLsb' (a + 8) 8 ++
      v.extractLsb' a 8 = v.extractLsb' a 32 := by
  rw [BitVec.extractLsb'_append_extractLsb'_eq_extractLsb' (by omega),
    BitVec.extractLsb'_append_extractLsb'_eq_extractLsb' (by omega),
    BitVec.extractLsb'_append_extractLsb'_eq_extractLsb' (by omega)]

theorem asciiHolds_putAscii_self (m : Memory) (f : TField) (v : BitVec 64) :
    AsciiHolds (Memory.putAscii m f (asciiHex16 v)) f v := by
  intro j hj
  have hget : Memory.get (Memory.putAscii m f (asciiHex16 v)) (f.offset + 4 * j) =
      some ((asciiHex16 v).extractLsb' (96 - 32 * j) 32) := by
    interval_cases j <;> simp [Memory.get_putAscii]
  rw [hget, ← extractLsb'_bytes, show 96 - 32 * j + 24 = 120 - 8 * (4 * j) by omega,
    show 96 - 32 * j + 16 = 120 - 8 * (4 * j + 1) by omega,
    show 96 - 32 * j + 8 = 120 - 8 * (4 * j + 2) by omega,
    show 96 - 32 * j = 120 - 8 * (4 * j + 3) by omega]
  iterate 4 rw [extractLsb'_asciiHex16 v (by omega)]

/-- The write of an ASCII field changes no word outside it. -/
theorem Memory.get_putAscii_of_ne {m : Memory} {f : TField} {v : BitVec 128} {a : Nat}
    (hf : f.words = 4) (h : ∀ j < f.words, a ≠ f.offset + 4 * j) :
    Memory.get (Memory.putAscii m f v) a = Memory.get m a :=
  Memory.get_storeWords_of_ne fun j hj => h j (by simpa [hf, asciiWords] using hj)

theorem sameOutside_putAscii {m m' : Memory} {fs : List TField} {f : TField} {v : BitVec 128}
    (h : SameOutside m m' fs) (hf : f.words = 4) (hmem : f ∈ fs) :
    SameOutside m (Memory.putAscii m' f v) fs :=
  fun a ha => (Memory.get_putAscii_of_ne hf (ha f hmem)).trans (h a ha)

/-- The words of one field are not those of another. -/
theorem Memory.get_putAscii_word_of_ne {m : Memory} {f g : TField} {v : BitVec 128}
    (hf : f.words = 4) (hne : g ≠ f) {k : Nat} (hk : k < g.words) :
    Memory.get (Memory.putAscii m f v) (g.offset + 4 * k) = Memory.get m (g.offset + 4 * k) :=
  Memory.get_putAscii_of_ne hf fun _ hj h => hne (TField.eq_of_word_eq hk hj h)

theorem slotHolds_putAscii_of_ne {w : Nat} {m : Memory} {f g : TField} {v : BitVec 128}
    {u : BitVec w} (hf : f.words = 4) (hne : g ≠ f) :
    SlotHolds (Memory.putAscii m f v) g u ↔ SlotHolds m g u := by
  have h0 : Memory.get (Memory.putAscii m f v) g.offset = Memory.get m g.offset :=
    Memory.get_putAscii_word_of_ne hf hne (k := 0) (lt_of_lt_of_le two_pos g.two_le_words)
  have h1 : Memory.get (Memory.putAscii m f v) (g.offset + 4) = Memory.get m (g.offset + 4) :=
    Memory.get_putAscii_word_of_ne hf hne (k := 1) g.two_le_words
  rw [SlotHolds, SlotHolds, h0, h1]

theorem asciiHolds_putAscii_of_ne {m : Memory} {f g : TField} {v : BitVec 128} {u : BitVec 64}
    (hf : f.words = 4) (hg : g.words = 4) (hne : g ≠ f) :
    AsciiHolds (Memory.putAscii m f v) g u ↔ AsciiHolds m g u :=
  forall₂_congr fun _ hj => by rw [Memory.get_putAscii_word_of_ne hf hne (hg ▸ hj)]

end Sys2Proof.Machine

/-! ### The stages `LOAD` and `FP` (R201, R204) -/

namespace Sys2Proof.Machine

open Sys2Proof.Statements

theorem loadEffect_trace_holds (s : State) :
    SlotHolds (loadEffect s).trace .ptBin s.pt.buf ∧
    SlotHolds (loadEffect s).trace .keyBin s.key.buf ∧
    AsciiHolds (loadEffect s).trace .ptHex s.pt.buf ∧
    AsciiHolds (loadEffect s).trace .keyHex s.key.buf := by
  simp only [loadEffect]
  refine ⟨?_, ?_, ?_, asciiHolds_putAscii_self _ _ _⟩
  · iterate 2 refine (slotHolds_putAscii_of_ne rfl (by decide)).2 ?_
    simp
  · iterate 2 refine (slotHolds_putAscii_of_ne rfl (by decide)).2 ?_
    simp
  · exact (asciiHolds_putAscii_of_ne rfl rfl (by decide)).2 (asciiHolds_putAscii_self _ _ _)

theorem sameOutside_loadEffect (s : State) :
    SameOutside s.trace (loadEffect s).trace [.ptBin, .keyBin, .ptHex, .keyHex] := by
  simp only [loadEffect]
  iterate 2 refine sameOutside_putAscii ?_ rfl (by simp)
  iterate 2 refine sameOutside_putSlot ?_ (by simp)
  exact sameOutside_refl _ _

end Sys2Proof.Machine

section

open Sys2Proof Sys2Proof.Machine

/-- Settles O28: `LOAD` writes two slots and two ASCII fields, no two of which share a word. -/
theorem loadStage : Obligations.LoadStage := by
  intro s hb
  obtain ⟨hpt, hkey, hptHex, hkeyHex⟩ := loadEffect_trace_holds s
  exact ⟨_, exec_stage rfl hb, rfl, hpt, hkey, hptHex, hkeyHex, sameOutside_loadEffect s⟩

/-- Settles O31: `IP` writes one slot field and reads another. -/
theorem ipStage : Obligations.IpStage := by
  intro s hb v
  refine ⟨_, exec_stage rfl hb, ?_, fun hw => State.noteSlot_draws_of_written hw,
    slotHolds_putSlot_self _ _ _, sameOutside_putSlot (sameOutside_refl _ _) (by simp)⟩
  simp [stageEffect, ipEffect, stageSucc, stageRnd, first, last, v]

/-- Settles O33: `FP` writes the ciphertext's slot and its ASCII field. -/
theorem fpStage : Obligations.FpStage := by
  intro s hb ct
  refine ⟨_, exec_stage rfl hb, rfl, ?_, asciiHolds_putAscii_self _ _ _,
    sameOutside_putAscii (sameOutside_putSlot (sameOutside_refl _ _) (by simp)) rfl (by simp)⟩
  exact (slotHolds_putAscii_of_ne rfl (by decide)).2 (slotHolds_putSlot_self _ _ _)

/-- Settles O34: every stage requires `BUSY = 1`. -/
theorem idleEngineHasNoStep : Obligations.IdleEngineHasNoStep := by
  intro s hb
  have hno : ∀ f c,
      (.next (s.engineStep f c) : Host.Outcome State Fault Refusal) = .next s :=
    fun _ _ => congrArg _ (State.engineStep_of_idle hb)
  exact ⟨by simp [exec, execIdle, hb], hno _ _, hno _ _, hno _ _, hno _ _, fun _ => hno _ _,
    fun _ => hno _ _, fun ht => step_of_engine_idle ht hb⟩

end

/-! ### What an engine step reads (R206) -/

namespace Sys2Proof.Machine

/-- Two engines at the same point of the same run, whatever their status bits and their hosts. -/
structure State.SameEngine (s s' : State) : Prop where
  tables : s.tables = s'.tables
  c : s.c = s'.c
  d : s.d = s'.d
  l : s.l = s'.l
  r : s.r = s'.r
  ptBuf : s.pt.buf = s'.pt.buf
  keyBuf : s.key.buf = s'.key.buf
  trace : s.trace = s'.trace
  draws : s.draws = s'.draws

theorem State.SameEngine.slot {s s' : State} (h : s.SameEngine s') (f : TField) :
    s.slot f = s'.slot f := by
  simp only [State.slot, State.traceWord, h.trace, h.draws]

theorem State.SameEngine.noteSlot_draws {s s' : State} (h : s.SameEngine s') (f : TField) :
    (s.noteSlot f).draws = (s'.noteSlot f).draws := by
  simp only [State.noteSlot, State.noteReads_draws, h.trace, h.draws]

/-- The effect of a stage depends on nothing else. -/
theorem sameEngine_stageEffect {s s' : State} (h : s.SameEngine s') (i : Instr) :
    (stageEffect i s).SameEngine (stageEffect i s') := by
  have hslot := h.slot
  have hnote := h.noteSlot_draws
  obtain ⟨htab, hc, hd, hl, hr, hpt, hkey, htrace, hdraws⟩ := h
  cases i with
  | load => constructor <;> simp [stageEffect, loadEffect, *]
  | pc1 => constructor <;> simp [stageEffect, pc1Effect, *]
  | ks i => constructor <;> simp [stageEffect, ksEffect, *]
  | ip => constructor <;> simp [stageEffect, ipEffect, *]
  | rnd i => constructor <;> simp [stageEffect, rndEffect, *]
  | fp => constructor <;> simp [stageEffect, fpEffect, *]
  | _ => exact ⟨htab, hc, hd, hl, hr, hpt, hkey, htrace, hdraws⟩

end Sys2Proof.Machine

/-! ### How long a run takes (R206, R210) -/

namespace Sys2Proof.Machine

theorem State.stepsLeft_of_idle {s : State} (hb : s.busy = false) : s.stepsLeft = 0 := by
  simp [State.stepsLeft, hb]

theorem State.stepsLeft_of_stagePlace {s : State} {n : Nat} (hb : s.busy = true)
    (hn : stagePlace (decodeStage s.stage) = some n) : s.stepsLeft = 36 - n := by
  simp [State.stepsLeft, hb, State.stagesDone_of_stagePlace hn]

/-- The host adds no engine step to a run and takes none from it. -/
theorem SameRun.stepsLeft_eq {s t : State} (h : SameRun s t) : t.stepsLeft = s.stepsLeft := by
  cases h; rfl

/-- The host cannot disturb a run in progress (R262). -/
theorem HostChange.sameRun_of_busy {s t : State} (h : HostChange s t) (hb : s.busy = true) :
    SameRun s t := by
  cases h with
  | same h => exact h
  | inputs idle | refused idle | started idle => simp [idle] at hb

/-- A stage takes one engine step of its run. -/
theorem stepsLeft_of_exec_stage {n : Nat} {s t : State} (hb : s.busy = true)
    (hn : stagePlace (decodeStage s.stage) = some n) (he : exec (decodeStage s.stage) s = .next t) :
    t.stepsLeft + 1 = s.stepsLeft := by
  obtain ⟨t', ht', hstage, hbusy, -⟩ := exec_stage_of_busy hn hb
  obtain rfl : t' = t := Host.Outcome.next.inj (ht'.symm.trans he)
  obtain ⟨hlt, hlast⟩ := stagePlace_bounds hn
  rw [State.stepsLeft_of_stagePlace hb hn]
  by_cases hfp : decodeStage s.stage = .fp
  · rw [State.stepsLeft_of_idle (by simp [hbusy, hfp]), hlast.1 hfp]
  · have hsucc := stagePlace_stageSucc hn hfp
    rw [← hstage] at hsucc
    rw [State.stepsLeft_of_stagePlace (by simp [hbusy, hfp]) hsucc]
    have : n ≠ 35 := fun h => hfp (hlast.2 h)
    omega

/-- A `START` of an idle engine that sets `BUSY` sets `STAGE` to `LOAD` (R235). -/
theorem startEffect_stage_of_busy {s : State} (hb : s.busy = false)
    (hbusy : (startEffect s).busy = true) : (startEffect s).stage = stageLoad := by
  rw [startEffect, State.whenIdle_of_idle hb] at hbusy ⊢
  split at hbusy
  · simp [hb] at hbusy
  · next h => rw [if_neg h]

end Sys2Proof.Machine

section

open Sys2Proof Sys2Proof.Machine

/-- Settles O41: in reset nothing moves, and a stage reads what the two engines have in common. -/
theorem engineStepDependsOnTheRunAlone : Obligations.EngineStepDependsOnTheRunAlone := by
  intro s s' t t' hb hb' ht ht' htab hc hd hl hr hpt hkey hstage htrace hres hdraws hst hst'
  cases hheld : s.inReset with
  | true =>
    obtain rfl := Host.Outcome.next.inj ((step_of_held hheld (.inr ht)).symm.trans hst)
    obtain rfl := Host.Outcome.next.inj ((step_of_held (hres ▸ hheld) (.inr ht')).symm.trans hst')
    exact ⟨hc, hd, hl, hr, hstage, hb.trans hb'.symm, htrace, hdraws⟩
  | false =>
    rw [step_of_busy hheld hb ht] at hst
    rw [step_of_busy (hres ▸ hheld) hb' ht', ← hstage] at hst'
    obtain ⟨n, hn⟩ := stagePlace_of_exec (s := s.passTurn) hb hst
    have hsame : s.passTurn.SameEngine s'.passTurn :=
      ⟨htab, hc, hd, hl, hr, hpt, hkey, htrace, hdraws⟩
    have heff := sameEngine_stageEffect hsame (decodeStage s.stage)
    obtain ⟨u, hu, -, hbusy, -⟩ := exec_stage_of_busy (s := s.passTurn) hn hb
    obtain ⟨u', hu', -, hbusy', -⟩ := exec_stage_of_busy (s := s'.passTurn) hn hb'
    obtain rfl : u = t := Host.Outcome.next.inj (hu.symm.trans hst)
    obtain rfl : u' = t' := Host.Outcome.next.inj (hu'.symm.trans hst')
    rw [exec_stage (s := s.passTurn) hn hb] at hu
    rw [exec_stage (s := s'.passTurn) hn hb'] at hu'
    obtain rfl := Host.Outcome.next.inj hu
    obtain rfl := Host.Outcome.next.inj hu'
    exact ⟨heff.c, heff.d, heff.l, heff.r, rfl, hbusy.trans hbusy'.symm, heff.trace, heff.draws⟩

/-- Settles O42, by the place of the stage in the sequence. -/
theorem runTakesThirtySixSteps : Obligations.RunTakesThirtySixSteps := by
  refine ⟨fun s t hb hst hbusy => ?_, fun s t hinv hr hb ht hst => ?_, fun s t hb ht hst => ?_,
    fun s hinv => ?_⟩
  · obtain rfl : s.portWrite startEffect = t := Host.Outcome.next.inj hst
    obtain ⟨_, hw⟩ | ⟨_, hw⟩ := s.portWrite_cases startEffect
    · simp [hw, hb] at hbusy
    · rw [hw] at hbusy ⊢
      have hstage : ((startEffect s).respond .written).stage = stageLoad :=
        startEffect_stage_of_busy hb hbusy
      exact State.stepsLeft_of_stagePlace (n := 0) hbusy (by rw [hstage]; decide)
  · obtain ⟨n, hn⟩ := hinv.stagePlace_of_busy hb
    exact stepsLeft_of_exec_stage (s := s.passTurn) hb hn (step_of_busy hr hb ht ▸ hst)
  · obtain ⟨ha, _⟩ | ⟨ha, _⟩ | ⟨ha, _⟩ | ⟨_, _, hc⟩ | ⟨_, hs⟩ := step_change hst
    · simp [ht] at ha
    · simp [ht] at ha
    · simp [ht] at ha
    · exact (hc.sameRun_of_busy hb).stepsLeft_eq
    · exact hs.stepsLeft_eq
  · cases hb : s.busy with
    | false => simp [State.stepsLeft_of_idle hb]
    | true =>
      obtain ⟨n, hn⟩ := hinv.stagePlace_of_busy hb
      have hlt := (stagePlace_bounds hn).1
      rw [State.stepsLeft_of_stagePlace hb hn]
      simp only [Bool.true_eq_false, iff_false]
      omega

/-- Settles O48: each of the two runs leaves the trace of its tables and buffers. -/
theorem runsAreDeterministic : Obligations.RunsAreDeterministic := by
  intro s s' t t' hs hs' htab hpt hkey hr hr' hb hb' hstage hstage' ht ht' hst hst' f
  obtain ⟨u, hu, -, -, -, hholds⟩ := completedRunHoldsItsTrace.2 s hs hr hb hstage ht
  obtain ⟨u', hu', -, -, -, hholds'⟩ := completedRunHoldsItsTrace.2 s' hs' hr' hb' hstage' ht'
  obtain rfl : u = t := Host.Outcome.next.inj (hu.symm.trans hst)
  obtain rfl : u' = t' := Host.Outcome.next.inj (hu'.symm.trans hst')
  rw [htab, hpt, hkey] at hholds
  exact (hholds f).trans (hholds' f).symm

end

/-! ### The trace of two strings, from their blocks (R96, R205, C6) -/

namespace Sys2Proof.Machine

/-- Padding a string of hex digits leaves hex digits only (R125). -/
theorem isHex_of_mem_normalize {s : List Char8} (h : s.all isHex = true) {ch : Char8}
    (hch : ch ∈ normalize s) : isHex ch = true := by
  obtain hch | hch := List.mem_append.1 (List.mem_of_mem_take hch)
  · exact List.all_eq_true.1 h ch hch
  · rw [List.eq_of_mem_replicate hch]; decide

/-- The digits of a string's block are the string in the form a CipherTrace holds it (R123, C6). -/
theorem binaryToHex_hexBlock {s : List Char8} (h : s.all isHex = true) :
    binaryToHex (n := 16) (hexBlock s) = normalText s := by
  refine List.ext_getElem (by simp [binaryToHex, normalText, length_normalize]) fun k hk hk' => ?_
  have hlt : k < 16 := by simpa [binaryToHex] using hk
  have hlen : k < (normalize s).length := by rwa [length_normalize]
  have hdigit : nibble (hexBlock s) k = hexDigit (normalize s)[k] := by
    rw [nibble_hexBlock s hlt, hexDigit_normalize s hlt]
  simp only [binaryToHex, normalText, List.getElem_map, List.getElem_range]
  rw [← asciiHexDigit_hexDigit (isHex_of_mem_normalize h (List.getElem_mem hlen)), ← hdigit]
  rfl

/-- `EncryptBlock` of two strings of hex digits is `encrypt` of their blocks (R205). -/
theorem encryptBlock_eq_encrypt (T : Tables) {pt key : List Char8} (hpt : pt.all isHex = true)
    (hkey : key.all isHex = true) :
    encryptBlock T pt key = .ok (encrypt T (hexBlock pt) (hexBlock key)) := by
  rw [encryptBlock_of_isHex T hpt hkey, ← binaryToHex_hexBlock hpt, ← binaryToHex_hexBlock hkey]
  rfl

/-- A cleared field into which a string of hex digits is written holds its block (R125, R238). -/
theorem foldl_charIn_of_isHex {s : List Char8} (h : s.all isHex = true) :
    (s.foldl InputField.charIn .empty).buf = hexBlock s ∧
      (s.foldl InputField.charIn .empty).mal = false := by
  obtain ⟨hbuf, -, -, hmal⟩ := streamedStringIsNormalised s
  rw [hbuf, hmal, List.filter_eq_self.2 (List.all_eq_true.1 h)]
  refine ⟨rfl, List.any_eq_false.2 fun ch hch => ?_⟩
  simp [List.all_eq_true.1 h ch hch]

end Sys2Proof.Machine

/-! ### The host's accesses of one run, on an idle engine (R230 to R242, R293) -/

namespace Sys2Proof.Machine

/-- The accesses with which the host's order of work begins, up to `START` (R293). -/
inductive InputOp where
  | readId | readStatus | clear
  | ptChar (ch : Char8)
  | keyChar (ch : Char8)

/-- The bus transaction of such an access (R99, R100). -/
def InputOp.access : InputOp → BusAccess
  | .readId => ⟨0x000, 4, .read⟩
  | .readStatus => ⟨0x008, 4, .read⟩
  | .clear => ⟨0x004, 4, .write ((3 : BitVec 4).setWidth 32)⟩
  | .ptChar ch => ⟨0x010, 4, .write (ch.setWidth 32)⟩
  | .keyChar ch => ⟨0x014, 4, .write (ch.setWidth 32)⟩

/-- What such an access makes of the plaintext and the key field of an idle engine. -/
def InputOp.effect (fields : InputField × InputField) : InputOp → InputField × InputField
  | .readId | .readStatus => fields
  | .clear => (.empty, .empty)
  | .ptChar ch => (fields.1.charIn ch, fields.2)
  | .keyChar ch => (fields.1, fields.2.charIn ch)

/-- The accesses before `START` of the order of work for two strings (R293). -/
def inputOps (pt key : List Char8) : List InputOp :=
  .readId :: .readStatus :: .clear :: (pt.map .ptChar ++ key.map .keyChar)

theorem length_inputOps (pt key : List Char8) :
    (inputOps pt key).length = pt.length + key.length + 3 := by simp [inputOps]

/-- What the order of work ends with: wait for `BUSY = 0`, read `STATUS` (R293). -/
def closingOps : List HostOp := [.wait, .rd 0x008]

theorem bootRun_eq (pt key : List Char8) :
    HostOp.bootRun pt key =
      (inputOps pt key).map (fun op => .access op.access) ++ .cmd 0x4 :: closingOps := by
  simp only [HostOp.bootRun, inputOps, closingOps, HostOp.pts, HostOp.keys, List.map_cons,
    List.map_append, List.map_map, List.cons_append, List.nil_append, List.append_assoc]
  rfl

/-- Whatever the fields held before, the accesses leave the two strings in them. -/
theorem foldl_effect_inputOps (pt key : List Char8) (fields : InputField × InputField) :
    (inputOps pt key).foldl InputOp.effect fields =
      (pt.foldl InputField.charIn .empty, key.foldl InputField.charIn .empty) := by
  have hpt : ∀ (str : List Char8) (f k : InputField),
      (str.map InputOp.ptChar).foldl InputOp.effect (f, k) =
        (str.foldl InputField.charIn f, k) := by
    intro str
    induction str with
    | nil => exact fun _ _ => rfl
    | cons ch str ih => exact fun f k => ih (f.charIn ch) k
  have hkey : ∀ (str : List Char8) (f k : InputField),
      (str.map InputOp.keyChar).foldl InputOp.effect (f, k) =
        (f, str.foldl InputField.charIn k) := by
    intro str
    induction str with
    | nil => exact fun _ _ => rfl
    | cons ch str ih => exact fun f k => ih f (k.charIn ch)
  simp only [inputOps, List.foldl_cons, List.foldl_append, InputOp.effect, hpt, hkey]

theorem charCode_setWidth (ch : Char8) : charCode (ch.setWidth 32) = ch := by
  refine BitVec.eq_of_getLsbD_eq fun i hi => ?_
  simp [charCode, hi]
  omega

/-- A port write whose effect needs the engine idle, on one that is, with `FATAL = 0`. -/
theorem State.portWrite_whenIdle {f : State → State} {s : State} (hb : s.busy = false)
    (hf : s.fatal = false) :
    s.portWrite (fun s => s.whenIdle f) = (f s).respond .written := by
  rw [State.portWrite_of_not_fatal hf, State.whenIdle_of_idle hb]

/-- A character written to an idle engine with `FATAL = 0` goes into its field (R238, R241). -/
theorem State.portWrite_charIn (n : InputName) (ch : Char8) {s : State} (hb : s.busy = false)
    (hf : s.fatal = false) :
    s.portWrite (charInEffect n (ch.setWidth 32)) =
      (s.setInput n ((s.input n).charIn ch)).respond .written := by
  refine (State.portWrite_whenIdle hb hf).trans ?_
  rw [charCode_setWidth]

/-- An access of the order of work, on an idle engine with `FATAL = 0`, has its effect on the fields
and changes nothing else but the recorded answer. -/
theorem exec_inputOp (op : InputOp) {s : State} (hb : s.busy = false) (hf : s.fatal = false) :
    ∃ answer, exec (decodeHbus op.access) s = .next { s with
      pt := (op.effect (s.pt, s.key)).1
      key := (op.effect (s.pt, s.key)).2
      response := answer } := by
  cases op with
  | readId | readStatus => exact ⟨_, rfl⟩
  | clear => exact ⟨_, congrArg Host.Outcome.next (State.portWrite_whenIdle hb hf)⟩
  | ptChar ch =>
    rw [InputOp.access, decodeHbus_write_ptChar]
    exact ⟨_, congrArg Host.Outcome.next (State.portWrite_charIn .pt ch hb hf)⟩
  | keyChar ch =>
    rw [InputOp.access, decodeHbus_write_keyChar]
    exact ⟨_, congrArg Host.Outcome.next (State.portWrite_charIn .key ch hb hf)⟩

/-- `START` on an idle engine with `FATAL = 0` and no malformed input starts a run (R235). -/
theorem exec_start_of_idle {s : State} (hb : s.busy = false) (hf : s.fatal = false)
    (hpt : s.pt.mal = false) (hkey : s.key.mal = false) :
    exec (decodeHbus ⟨0x004, 4, .write ((4 : BitVec 4).setWidth 32)⟩) s = .next { s with
      errMalformed := false
      valid := false
      busy := true
      stage := stageLoad
      response := .written } := by
  refine (congrArg Host.Outcome.next (State.portWrite_whenIdle hb hf)).trans ?_
  rw [if_neg (by simp [hpt, hkey])]
  rfl

/-- A read of `STATUS` changes only the recorded answer (R68, R230). -/
theorem exec_readStatus (s : State) :
    exec (decodeHbus ⟨0x008, 4, .read⟩) s = .next (s.respond (.read s.statusWord)) := rfl

/-- `wait` is over when `BUSY = 0`. -/
theorem pollDone_statusWord (s : State) :
    pollDone (.read s.statusWord) 0x00000001 0x00000000 = !s.busy := by
  obtain ⟨hbusy, -⟩ := statusWord_layout s
  have hmask : s.statusWord &&& 1 = (BitVec.ofBool s.busy).setWidth 32 := by
    rw [← hbusy]; exact BitVec.and_one_eq_setWidth_ofBool_getLsbD
  rw [pollDone, Response.word, hmask]
  cases s.busy <;> rfl

end Sys2Proof.Machine

/-! ### What is still to be done of the order of work, turn by turn (R71, R206, R293) -/

namespace Sys2Proof.Machine

/-- What is still to be done: turns of the host up to `START`, turns of the engine to the end of the
run, turns of the host after it. -/
@[ext] structure BootTodo where
  opening : Nat
  stages : Nat
  closing : Nat

/-- A turn of the one whose work is due does some of it; any other turn does none. -/
def BootTodo.turn (n : BootTodo) : Turn → BootTodo
  | .host =>
    if 0 < n.opening then { n with opening := n.opening - 1 }
    else if 0 < n.stages then n
    else { n with closing := n.closing - 1 }
  | .engine => if 0 < n.opening then n else { n with stages := n.stages - 1 }
  | .assertReset | .releaseReset => n

theorem BootTodo.turn_host_of_opening {n : BootTodo} (h : 0 < n.opening) :
    n.turn .host = { n with opening := n.opening - 1 } := if_pos h

theorem BootTodo.turn_host_of_stages {n : BootTodo} (h0 : n.opening = 0) (h : 0 < n.stages) :
    n.turn .host = n := by simp [BootTodo.turn, h0, h]

theorem BootTodo.turn_host_of_closing {n : BootTodo} (h0 : n.opening = 0) (h : n.stages = 0) :
    n.turn .host = { n with closing := n.closing - 1 } := by simp [BootTodo.turn, h0, h]

theorem BootTodo.turn_engine_of_opening {n : BootTodo} (h : 0 < n.opening) :
    n.turn .engine = n := if_pos h

theorem BootTodo.turn_engine_of_stages {n : BootTodo} (h0 : n.opening = 0) :
    n.turn .engine = { n with stages := n.stages - 1 } := by simp [BootTodo.turn, h0]

/-- No turn adds any work. -/
theorem BootTodo.turn_le (n : BootTodo) (m : Turn) :
    (n.turn m).opening ≤ n.opening ∧ (n.turn m).stages ≤ n.stages ∧
      (n.turn m).closing ≤ n.closing := by
  cases m with
  | host | engine => unfold BootTodo.turn; split_ifs <;> simp
  | _ => exact ⟨le_rfl, le_rfl, le_rfl⟩

theorem foldl_turn_le (ms : List Turn) (n : BootTodo) :
    (ms.foldl BootTodo.turn n).opening ≤ n.opening ∧ (ms.foldl BootTodo.turn n).stages ≤ n.stages ∧
      (ms.foldl BootTodo.turn n).closing ≤ n.closing := by
  induction ms generalizing n with
  | nil => exact ⟨le_rfl, le_rfl, le_rfl⟩
  | cons m ms ih =>
    obtain ⟨ho, hs, hc⟩ := ih (n.turn m)
    obtain ⟨ho', hs', hc'⟩ := n.turn_le m
    exact ⟨ho.trans ho', hs.trans hs', hc.trans hc'⟩

/-- Enough turns of the host do all that comes before the run. -/
theorem foldl_turn_opening {ms : List Turn} {n : BootTodo} (h : n.opening ≤ ms.count .host) :
    (ms.foldl BootTodo.turn n).opening = 0 := by
  induction ms generalizing n with
  | nil => simpa using h
  | cons m ms ih =>
    refine ih ?_
    have hle := (n.turn_le m).1
    cases m with
    | host =>
      rw [List.count_cons_self] at h
      obtain h0 | h0 := Nat.eq_zero_or_pos n.opening
      · omega
      · rw [BootTodo.turn_host_of_opening h0]; simp only; omega
    | _ => rw [List.count_cons_of_ne (by decide)] at h; omega

/-- Enough turns of the engine do the whole run, once it has started. -/
theorem foldl_turn_stages {ms : List Turn} {n : BootTodo} (h0 : n.opening = 0)
    (h : n.stages ≤ ms.count .engine) : (ms.foldl BootTodo.turn n).stages = 0 := by
  induction ms generalizing n with
  | nil => simpa using h
  | cons m ms ih =>
    obtain ⟨ho, hs, -⟩ := n.turn_le m
    refine ih (by omega) ?_
    cases m with
    | engine =>
      rw [List.count_cons_self] at h
      rw [BootTodo.turn_engine_of_stages h0]; simp only; omega
    | _ => rw [List.count_cons_of_ne (by decide)] at h; omega

/-- Enough turns of the host do all that comes after the run. -/
theorem foldl_turn_closing {ms : List Turn} {n : BootTodo} (h0 : n.opening = 0) (h1 : n.stages = 0)
    (h : n.closing ≤ ms.count .host) : (ms.foldl BootTodo.turn n).closing = 0 := by
  induction ms generalizing n with
  | nil => simpa using h
  | cons m ms ih =>
    obtain ⟨ho, hs, hc⟩ := n.turn_le m
    refine ih (by omega) (by omega) ?_
    cases m with
    | host =>
      rw [List.count_cons_self] at h
      rw [BootTodo.turn_host_of_closing h0 h1]; simp only; omega
    | _ => rw [List.count_cons_of_ne (by decide)] at h; omega

/-- All is done when enough turns of the host, then of the engine, then of the host have passed. -/
theorem foldl_turn_eq_zero {before during after : List Turn} {n : BootTodo}
    (hbefore : n.opening ≤ before.count .host) (hduring : n.stages ≤ during.count .engine)
    (hafter : n.closing ≤ after.count .host) :
    (before ++ during ++ after).foldl BootTodo.turn n = ⟨0, 0, 0⟩ := by
  rw [List.foldl_append, List.foldl_append]
  have hopen := foldl_turn_opening hbefore
  obtain ⟨-, hstages, hclosing⟩ := foldl_turn_le before n
  generalize before.foldl BootTodo.turn n = a at *
  have hrun := foldl_turn_stages hopen (hstages.trans hduring)
  obtain ⟨hopen', -, hclosing'⟩ := foldl_turn_le during a
  generalize during.foldl BootTodo.turn a = b at *
  have hopenb : b.opening = 0 := by omega
  have hclose := foldl_turn_closing hopenb hrun ((hclosing'.trans hclosing).trans hafter)
  obtain ⟨hopen'', hrun', -⟩ := foldl_turn_le after b
  exact BootTodo.ext (by simp only; omega) (by simp only; omega) hclose

end Sys2Proof.Machine

/-! ### One run of the host's order of work, under every interleaving (R71, R206, R293) -/

namespace Sys2Proof.Machine

section

variable {T : Tables} {P K : InputField} {s : State}

/-- Before `START`: the accesses that are left will have put `P` and `K` in the input fields. -/
structure BootOpening (T : Tables) (P K : InputField) (ops : List InputOp) (s : State) : Prop where
  released : s.inReset = false
  tables : s.tables = T
  idle : s.busy = false
  live : s.fatal = false
  fields : ops.foldl InputOp.effect (s.pt, s.key) = (P, K)
  program : s.program = ops.map (fun op => .access op.access) ++ .cmd 0x4 :: closingOps

/-- In the run, with `n` stages done. -/
structure BootRunning (T : Tables) (P K : InputField) (n : Nat) (s : State) : Prop where
  released : s.inReset = false
  tables : s.tables = T
  busy : s.busy = true
  place : stagePlace (decodeStage s.stage) = some n
  run : s.RunAt n
  pt : s.pt = P
  key : s.key = K
  wellFormed : s.errMalformed = false
  program : s.program = closingOps

/-- After the run, with `k` of the closing operations done. -/
structure BootComplete (T : Tables) (P K : InputField) (k : Nat) (s : State) : Prop where
  released : s.inReset = false
  idle : s.busy = false
  valid : s.valid = true
  wellFormed : s.errMalformed = false
  stage : s.stage = stageIdle
  trace : ∀ f : TField, Memory.holds s.trace (encrypt T P.buf K.buf) f
  program : s.program = closingOps.drop k
  answer : 2 ≤ k → s.response = .read s.statusWord

/-- The machine is within the order of work, with `n` still to be done. -/
inductive BootRun (T : Tables) (P K : InputField) : BootTodo → State → Prop where
  | opening {s : State} {ops : List InputOp} (h : BootOpening T P K ops s) :
      BootRun T P K ⟨ops.length + 1, 36, 2⟩ s
  | running {s : State} {n : Nat} (h : BootRunning T P K n s) : BootRun T P K ⟨0, 36 - n, 2⟩ s
  | complete {s : State} {k : Nat} (h : BootComplete T P K k s) : BootRun T P K ⟨0, 0, 2 - k⟩ s

theorem BootRun.released {n : BootTodo} (h : BootRun T P K n s) : s.inReset = false := by
  cases h with
  | opening h | running h | complete h => exact h.released

theorem BootRunning.passTurn {n : Nat} (h : BootRunning T P K n s) :
    BootRunning T P K n s.passTurn :=
  { h with run := ⟨h.run.done, h.run.keyRegs, h.run.halves⟩ }

theorem BootRun.passTurn {n : BootTodo} (h : BootRun T P K n s) : BootRun T P K n s.passTurn := by
  cases h with
  | opening h => exact .opening { h with }
  | running h => exact .running h.passTurn
  | complete h => exact .complete { h with }

/-- An access before `START` is done. -/
theorem BootOpening.hostOperation_cons {op : InputOp} {ops : List InputOp}
    (h : BootOpening T P K (op :: ops) s) :
    ∃ t, s.hostOperation exec = .next t ∧ t.sched = s.sched ∧ BootOpening T P K ops t := by
  obtain ⟨answer, hx⟩ := exec_inputOp op (s := s.passOp) h.idle h.live
  exact ⟨_, (State.hostOperation_access h.program).trans hx, rfl,
    { h with fields := h.fields, program := congrArg List.tail h.program }⟩

/-- A run of which nothing is done agrees with any trace. -/
theorem runAt_zero (s : State) : s.RunAt 0 := ⟨by omega, by omega, by omega⟩

/-- `START` begins the run. -/
theorem BootOpening.hostOperation_nil (h : BootOpening T P K [] s) (hP : P.mal = false)
    (hK : K.mal = false) :
    ∃ t, s.hostOperation exec = .next t ∧ t.sched = s.sched ∧ BootRunning T P K 0 t := by
  obtain ⟨hpt, hkey⟩ := Prod.mk.inj h.fields
  have hx := exec_start_of_idle (s := s.passOp) h.idle h.live (hpt ▸ hP) (hkey ▸ hK)
  exact ⟨_, (State.hostOperation_access h.program).trans hx, rfl,
    { h with
      busy := rfl
      place := (by decide : stagePlace (decodeStage stageLoad) = some 0)
      run := runAt_zero _
      pt := hpt
      key := hkey
      wellFormed := rfl
      program := congrArg List.tail h.program }⟩

/-- A `poll` of `STATUS` for `BUSY = 0` changes nothing of a run and stays in the program (R99). -/
theorem BootRunning.hostOperation {n : Nat} (h : BootRunning T P K n s) :
    ∃ t, s.hostOperation exec = .next t ∧ t.sched = s.sched ∧ BootRunning T P K n t := by
  have hpoll := State.hostOperation_poll h.program (exec_readStatus s)
  rw [State.respond_response, pollDone_statusWord, h.busy] at hpoll
  exact ⟨_, hpoll, rfl, { h with run := ⟨h.run.done, h.run.keyRegs, h.run.halves⟩ }⟩

/-- After the run the poll finds `BUSY = 0`, and the last read shows the status. -/
theorem BootComplete.hostOperation {k : Nat} (h : BootComplete T P K k s) :
    ∃ t, s.hostOperation exec = .next t ∧ t.sched = s.sched ∧ BootComplete T P K (k + 1) t := by
  match k with
  | 0 =>
    have hpoll := State.hostOperation_poll h.program (exec_readStatus s)
    rw [State.respond_response, pollDone_statusWord, h.idle] at hpoll
    exact ⟨_, hpoll, rfl, { h with program := congrArg List.tail h.program, answer := by omega }⟩
  | 1 =>
    exact ⟨_, (State.hostOperation_access h.program).trans (exec_readStatus _), rfl,
      { h with program := congrArg List.tail h.program, answer := fun _ => rfl }⟩
  | k + 2 =>
    have hnil : s.program = [] := by simp [h.program, closingOps]
    exact ⟨_, State.hostOperation_nil hnil, rfl,
      { h with program := by simp [hnil, closingOps], answer := fun _ => h.answer (by omega) }⟩

/-- A turn of the host does the operation that is due, or polls a busy engine. -/
theorem BootRun.hostOperation {n : BootTodo} (h : BootRun T P K n s) (hP : P.mal = false)
    (hK : K.mal = false) :
    ∃ t, s.hostOperation exec = .next t ∧ t.sched = s.sched ∧ BootRun T P K (n.turn .host) t := by
  cases h with
  | @opening _ ops h =>
    rw [BootTodo.turn_host_of_opening (Nat.succ_pos _)]
    cases ops with
    | nil => exact (h.hostOperation_nil hP hK).imp fun _ ⟨hx, hs, ht⟩ => ⟨hx, hs, .running ht⟩
    | cons op ops => exact h.hostOperation_cons.imp fun _ ⟨hx, hs, ht⟩ => ⟨hx, hs, .opening ht⟩
  | running h =>
    have hlt := (stagePlace_bounds h.place).1
    rw [BootTodo.turn_host_of_stages rfl (Nat.sub_pos_of_lt hlt)]
    exact h.hostOperation.imp fun _ ⟨hx, hs, ht⟩ => ⟨hx, hs, .running ht⟩
  | complete h =>
    rw [BootTodo.turn_host_of_closing rfl rfl]
    exact h.hostOperation.imp fun _ ⟨hx, hs, ht⟩ => ⟨hx, hs, .complete ht⟩

theorem stageEffect_errMalformed (i : Instr) (s : State) :
    (stageEffect i s).errMalformed = s.errMalformed := by
  cases i <;> simp [stageEffect, loadEffect, pc1Effect, ksEffect, ipEffect, rndEffect, fpEffect]

/-- A stage takes the run one place further, and the last one completes it. -/
theorem BootRunning.exec_stage {n : Nat} (h : BootRunning T P K n s) :
    ∃ t, exec (decodeStage s.stage) s = .next t ∧ t.sched = s.sched ∧
      BootRun T P K ⟨0, 36 - n - 1, 2⟩ t := by
  obtain ⟨t, he, hstage, hbusy, hvalid, htab, hpt, hkey, -, hsched, hprog, -, hres⟩ :=
    exec_stage_of_busy h.place h.busy
  have hrun := h.run.exec_stage h.place h.busy he
  have hmal : t.errMalformed = false := by
    rw [← Host.Outcome.next.inj ((Machine.exec_stage h.place h.busy).symm.trans he)]
    exact (stageEffect_errMalformed _ s).trans h.wellFormed
  refine ⟨t, he, hsched, ?_⟩
  by_cases hfp : decodeStage s.stage = .fp
  · obtain rfl : n = 35 := (stagePlace_bounds h.place).2.1 hfp
    have htrace : t.runTrace = encrypt T P.buf K.buf := by
      rw [State.runTrace, htab, hpt, hkey, h.tables, h.pt, h.key]
    exact .complete (k := 0)
      { released := hres.trans h.released
        idle := by simp [hbusy, hfp]
        valid := by simp [hvalid, hfp]
        wellFormed := hmal
        stage := by rw [hstage, hfp]; rfl
        trace := fun f => htrace ▸ hrun.done f f.writtenAt_lt
        program := hprog.trans h.program
        answer := by omega }
  · exact .running (n := n + 1)
      { released := hres.trans h.released
        tables := htab.trans h.tables
        busy := by simp [hbusy, hfp]
        place := hstage ▸ stagePlace_stageSucc h.place hfp
        run := hrun
        pt := hpt.trans h.pt
        key := hkey.trans h.key
        wellFormed := hmal
        program := hprog.trans h.program }

/-- Each turn of the host or the engine does what is due of the order of work. -/
theorem BootRun.step {n : BootTodo} (h : BootRun T P K n s) (hP : P.mal = false)
    (hK : K.mal = false) (ht : s.turn = .host ∨ s.turn = .engine) :
    ∃ t, step s = .next t ∧ t.sched = s.sched.tail ∧ BootRun T P K (n.turn s.turn) t := by
  obtain ht | ht := ht
  · rw [step_of_host h.released ht, ht]
    exact h.passTurn.hostOperation hP hK
  · rw [ht]
    have hp := h.passTurn
    cases h with
    | opening h => exact ⟨_, step_of_engine_idle ht h.idle, rfl, hp⟩
    | complete h => exact ⟨_, step_of_engine_idle ht h.idle, rfl, hp⟩
    | running h =>
      rw [step_of_busy h.released h.busy ht]
      exact h.passTurn.exec_stage

theorem core_run_succ {M : Host.Core} {s t : M.State} (h : M.step s = .next t) (k : Nat) :
    M.run (k + 1) s = M.run k t := by rw [Host.Core.run, h]

/-- Under any interleaving of turns of the host and the engine the order of work goes on without a
stop. -/
theorem BootRun.run {n : BootTodo} (h : BootRun T P K n s) (hP : P.mal = false) (hK : K.mal = false)
    {ms : List Turn} (hms : ∀ m ∈ ms, m = .host ∨ m = .engine) (hs : s.sched = ms) :
    ∃ t : State, Host.Core.run core ms.length s = .next t ∧ t.sched = [] ∧
      BootRun T P K (ms.foldl BootTodo.turn n) t := by
  induction ms generalizing n s with
  | nil => exact ⟨s, rfl, hs, h⟩
  | cons m ms ih =>
    have hturn := State.turn_cons hs
    obtain ⟨t, hst, hsched, ht⟩ := h.step hP hK (hturn ▸ hms m List.mem_cons_self)
    rw [List.length_cons, core_run_succ (M := core) hst]
    exact ih (hturn ▸ ht) (fun m hm => hms m (List.mem_cons_of_mem _ hm)) (by rw [hsched, hs]; rfl)

/-- Where nothing is left in the host's program, the run is complete and its status has been read. -/
theorem BootRun.complete_of_program_nil {n : BootTodo} (h : BootRun T P K n s)
    (hp : s.program = []) : ∃ k, 2 ≤ k ∧ BootComplete T P K k s := by
  cases h with
  | opening h => simp [h.program] at hp
  | running h => simp [h.program, closingOps] at hp
  | @complete _ k h =>
    rw [h.program, List.drop_eq_nil_iff] at hp
    exact ⟨k, hp, h⟩

/-- Where nothing is left to be done, nothing is left in the host's program. -/
theorem BootRun.program_nil {n : BootTodo} (h : BootRun T P K n s) (hn : n = ⟨0, 0, 0⟩) :
    s.program = [] := by
  cases h with
  | opening h => simp at hn
  | running h =>
    have hlt := (stagePlace_bounds h.place).1
    simp only [BootTodo.mk.injEq] at hn
    omega
  | complete h =>
    simp only [BootTodo.mk.injEq] at hn
    rw [h.program, List.drop_eq_nil_iff]
    exact Nat.le_of_sub_eq_zero hn.2.2

end

end Sys2Proof.Machine

section

open Sys2Proof Sys2Proof.Machine

/-- Settles O49, by what is still to be done of the order of work, turn by turn. -/
theorem hostProgramEncryptsTheStrings : Obligations.HostProgramEncryptsTheStrings := by
  intro s pt key hr hb hf hpt hkey hprog hsched
  obtain ⟨hptBuf, hptMal⟩ := foldl_charIn_of_isHex hpt
  obtain ⟨hkeyBuf, hkeyMal⟩ := foldl_charIn_of_isHex hkey
  have hstart : BootOpening s.tables (pt.foldl InputField.charIn .empty)
      (key.foldl InputField.charIn .empty) (inputOps pt key) s :=
    ⟨hr, rfl, hb, hf, foldl_effect_inputOps pt key _, hprog.trans (bootRun_eq pt key)⟩
  obtain ⟨t, hrun, hend, ht⟩ := (BootRun.opening hstart).run hptMal hkeyMal hsched rfl
  refine ⟨t, _, hrun, hend, encryptBlock_eq_encrypt _ hpt hkey, fun hdone => ?_,
    fun before during after hsplit hbefore hduring hafter => ht.program_nil ?_⟩
  · obtain ⟨k, hk, h⟩ := ht.complete_of_program_nil hdone
    obtain ⟨hbit0, hbit1, hbit2, -⟩ := statusWord_layout t
    rw [← hptBuf, ← hkeyBuf]
    exact ⟨h.trace, h.valid, h.idle, h.wellFormed, h.stage, _, h.answer hk, hbit0.trans h.idle,
      hbit1.trans h.valid, hbit2.trans h.wellFormed⟩
  · rw [hsplit]
    exact foldl_turn_eq_zero (by rwa [length_inputOps]) hduring hafter

end

/-! ### The commands, gated by `FATAL` and `BUSY` (R231 to R237, R242) -/

namespace Sys2Proof.Machine

open Sys2Proof.Statements

/-- A port write whose effect needs the engine idle, on one that is busy (R262). -/
theorem State.portWrite_whenIdle_of_busy {f : State → State} {s : State} (hb : s.busy = true)
    (hf : s.fatal = false) :
    s.portWrite (fun s => s.whenIdle f) = (s.raise .errBusy).respond .written := by
  rw [State.portWrite_of_not_fatal hf, State.whenIdle_of_busy hb]

/-- While `BUSY = 1`, `START` only sets `ERR_BUSY` (R235, R262). -/
theorem exec_start_of_busy {s : State} (hb : s.busy = true) (hf : s.fatal = false) :
    exec .start s = .next { s with errBusy := true, response := .written } :=
  congrArg Host.Outcome.next (State.portWrite_whenIdle_of_busy hb hf)

/-- `START` on an idle engine with `FATAL = 0` and a malformed input starts no run (R235, R261). -/
theorem exec_start_of_malformed {s : State} (hb : s.busy = false) (hf : s.fatal = false)
    (hmal : s.pt.mal = true ∨ s.key.mal = true) :
    exec .start s = .next { s with errMalformed := true, valid := false, response := .written } := by
  refine (congrArg Host.Outcome.next (State.portWrite_whenIdle hb hf)).trans ?_
  rw [if_pos hmal]
  rfl

/-- Each code's command is the write to `CTRL` that issues it (R93, R242). -/
theorem exec_commandNamed (c : BitVec 4) (s : State) :
    exec (commandNamed c.toNat) s = .next (s.portWrite (commandEffect c)) := by
  obtain ⟨⟨c, hc⟩⟩ := c
  interval_cases c <;> rfl

/-- A write to `CTRL` is the command of its four low bits, in every state (R242). -/
theorem exec_wrCtrl_eq_commandNamed (data : Word) (s : State) :
    exec (.wrCtrl data) s = exec (commandNamed (data.toNat % 16)) s := by
  rw [← toNat_commandCode, exec_commandNamed]
  rfl

/-- The codes `0x6` to `0xF` name the reserved commands (R93, R237). -/
theorem commandNamed_reserved {n : Nat} (h6 : 6 ≤ n) :
    (∃ b, commandNamed n = .cmdReserved6to7 b) ∨ (∃ b, commandNamed n = .cmdReserved8toF b) := by
  obtain rfl | rfl | h8 : n = 6 ∨ n = 7 ∨ 8 ≤ n := by omega
  · exact .inl ⟨_, rfl⟩
  · exact .inl ⟨_, rfl⟩
  · obtain ⟨k, rfl⟩ := Nat.exists_eq_add_of_le' h8
    exact .inr ⟨_, rfl⟩

end Sys2Proof.Machine

section

open Sys2Proof Sys2Proof.Machine

/-- Settles O8: the effect of the write is the identity, with `FATAL` or without. -/
theorem nopHasNoEffect : Obligations.NopHasNoEffect := by
  intro s
  obtain ⟨-, hw⟩ | ⟨-, hw⟩ := s.portWrite_cases fun s => s <;>
    exact congrArg Host.Outcome.next hw

/-- Settles O9, by the two values of `BUSY`. -/
theorem clearPlaintextCommand : Obligations.ClearPlaintextCommand := fun _ hf =>
  ⟨fun hb => congrArg Host.Outcome.next (State.portWrite_whenIdle_of_busy hb hf),
    fun hb => congrArg Host.Outcome.next (State.portWrite_whenIdle hb hf)⟩

/-- Settles O10, by the two values of `BUSY`. -/
theorem clearKeyCommand : Obligations.ClearKeyCommand := fun _ hf =>
  ⟨fun hb => congrArg Host.Outcome.next (State.portWrite_whenIdle_of_busy hb hf),
    fun hb => congrArg Host.Outcome.next (State.portWrite_whenIdle hb hf)⟩

/-- Settles O11, by the two values of `BUSY`. -/
theorem clearInputsCommand : Obligations.ClearInputsCommand := fun _ hf =>
  ⟨fun hb => congrArg Host.Outcome.next (State.portWrite_whenIdle_of_busy hb hf),
    fun hb => congrArg Host.Outcome.next (State.portWrite_whenIdle hb hf)⟩

/-- Settles O12, by `BUSY` and the two `MAL` flags. -/
theorem startCommand : Obligations.StartCommand := fun _ hf =>
  ⟨fun hb => exec_start_of_busy hb hf, fun hb => exec_start_of_malformed hb hf,
    fun hb => exec_start_of_idle hb hf⟩

/-- Settles O13: `ACK` has no check but that of `FATAL`. -/
theorem ackCommand : Obligations.AckCommand := fun _ hf =>
  congrArg Host.Outcome.next (State.portWrite_of_not_fatal hf)

/-- Settles O14: a reserved command has no check but that of `FATAL`. -/
theorem reservedCommandsSetErrCmd : Obligations.ReservedCommandsSetErrCmd := fun _ hf =>
  ⟨fun _ => congrArg Host.Outcome.next (State.portWrite_of_not_fatal hf),
    fun _ => congrArg Host.Outcome.next (State.portWrite_of_not_fatal hf)⟩

/-- Settles O15: the command named by the code is the write itself. -/
theorem controlWriteIssuesItsCommand : Obligations.ControlWriteIssuesItsCommand := by
  refine fun data s => ⟨fun hf => congrArg Host.Outcome.next (State.portWrite_of_fatal hf),
    ⟨_, rfl, (exec_wrCtrl_eq_commandNamed data s).symm⟩, fun data' hcode => ?_⟩
  exact congrArg (fun c => Host.Outcome.next (s.portWrite (commandEffect c))) hcode

/-- Settles O16: `FATAL` gates the three ports and not the reads, and only the end of reset evaluates
it again. -/
theorem fatalEngineTakesNoCommand : Obligations.FatalEngineTakesNoCommand := by
  refine ⟨fun s data hf => ?_, fun s hf => ?_, fun s t hf hst htf => ?_⟩
  · exact ⟨congrArg Host.Outcome.next (State.portWrite_of_fatal hf),
      congrArg Host.Outcome.next (State.portWrite_of_fatal hf),
      congrArg Host.Outcome.next (State.portWrite_of_fatal hf)⟩
  · obtain ⟨-, -, -, -, -, hbit, -⟩ := statusWord_layout s
    exact ⟨s.statusWord, exec_readStatus s, hbit.trans hf⟩
  · obtain ⟨-, hkeep⟩ := tablesNeverChangeAndFatalOnlyByReset s t hst
    obtain ⟨ht, hr⟩ : s.turn = .releaseReset ∧ s.inReset = true := by
      by_contra hn
      simp [hkeep hn, hf] at htf
    rw [step_of_releaseReset ht, State.releaseReset_of_held (s := s.passTurn) hr] at hst
    obtain rfl := Host.Outcome.next.inj hst
    exact ⟨ht, hr, by simpa using htf⟩

end

/-! ### One character written to an idle engine (R238, R241) -/

namespace Sys2Proof.Machine

open Sys2Proof.Statements

theorem hexVal?_eq_some_iff {ch : Char8} {v : BitVec 4} :
    hexVal? ch = some v ↔ isHex ch = true ∧ hexDigit ch = v := by simp [hexVal?]

theorem hexVal?_eq_none_iff {ch : Char8} : hexVal? ch = none ↔ isHex ch = false := by simp [hexVal?]

/-- What a character does to a field, by its kind and the room that is left (R238). -/
theorem charTaken_charIn (f : InputField) (data : Word) :
    CharTaken f (f.charIn (charCode data)) data := by
  refine ⟨fun v hv hc => ?_, fun v hv hc => ?_, fun hv => ?_⟩
  · obtain ⟨hx, rfl⟩ := hexVal?_eq_some_iff.1 hv
    rw [InputField.charIn_of_place (ch := charCode data) hx hc]
    refine ⟨InputField.toNat_cnt_succ hc, ?_, fun k hk hne => ?_, rfl, rfl⟩
    · exact (nibble_placeNibble _ _ hc hc).trans (if_pos rfl)
    · exact (nibble_placeNibble _ _ hc hk).trans (if_neg hne)
  · exact InputField.charIn_of_full (hexVal?_eq_some_iff.1 hv).1 hc
  · exact InputField.charIn_of_not_hex (hexVal?_eq_none_iff.1 hv)

end Sys2Proof.Machine

section

open Sys2Proof Sys2Proof.Machine

/-- Settles O17, by `FATAL` and `BUSY`; the field's part is `charTaken_charIn`. -/
theorem plaintextCharacterWrite : Obligations.PlaintextCharacterWrite := fun data s =>
  ⟨fun hf => congrArg Host.Outcome.next (State.portWrite_of_fatal hf),
    fun hf hb => congrArg Host.Outcome.next (State.portWrite_whenIdle_of_busy hb hf),
    fun hf hb => ⟨_, charTaken_charIn s.pt data,
      congrArg Host.Outcome.next (State.portWrite_whenIdle hb hf)⟩⟩

/-- Settles O18, by `FATAL` and `BUSY`; the field's part is `charTaken_charIn`. -/
theorem keyCharacterWrite : Obligations.KeyCharacterWrite := fun data s =>
  ⟨fun hf => congrArg Host.Outcome.next (State.portWrite_of_fatal hf),
    fun hf hb => congrArg Host.Outcome.next (State.portWrite_whenIdle_of_busy hb hf),
    fun hf hb => ⟨_, charTaken_charIn s.key data,
      congrArg Host.Outcome.next (State.portWrite_whenIdle hb hf)⟩⟩

end

/-! ### A read of any offset (R230, R291) -/

namespace Sys2Proof.Machine

/-- A read uses up draws and changes nothing else (R68). -/
theorem State.noteRead_eq (s : State) (off : Offset) :
    s.noteRead off = { s with draws := (s.noteRead off).draws } := by
  unfold State.noteRead
  split
  · unfold State.noteReads; split <;> rfl
  · rfl

theorem extractLsb'_two_eq_zero_iff (off : Offset) :
    off.extractLsb' 0 2 = 0 ↔ off.toNat % 4 = 0 := by
  rw [← BitVec.toNat_inj]; simp

/-- An offset that is neither a register a read returns nor a trace word reads as 0 (R65, R230). -/
theorem State.readWord_eq_zero (s : State) {off : Offset} (hid : off.toNat ≠ 0x000)
    (hstatus : off.toNat ≠ 0x008) (hinstat : off.toNat ≠ 0x00C)
    (htrace : isTraceOffset off.toNat = false) : s.readWord off = 0 := by
  have hid' : off ≠ 0x000 := by rintro rfl; exact hid rfl
  have hstatus' : off ≠ 0x008 := by rintro rfl; exact hstatus rfl
  have hinstat' : off ≠ 0x00C := by rintro rfl; exact hinstat rfl
  unfold State.readWord regionOf
  rw [if_neg hid', if_neg hstatus', if_neg hinstat', htrace, if_neg Bool.false_ne_true]
  split_ifs <;> rfl

end Sys2Proof.Machine

section

open Sys2Proof Sys2Proof.Machine

/-- Settles O20, by what stands at the offset; the trace offsets are the words of the fields. -/
theorem wordReadReturnsTheRegister : Obligations.WordReadReturnsTheRegister := by
  refine ⟨fun off s hal => ⟨s.readWord off, (s.noteRead off).draws, ?_, ?_, ?_, ?_, ?_, ?_, ?_⟩,
    fun off s hmis => if_neg (mt (extractLsb'_two_eq_zero_iff off).1 hmis)⟩
  · refine (if_pos ((extractLsb'_two_eq_zero_iff off).2 hal)).trans ?_
    rw [s.noteRead_eq off]
    rfl
  · intro h
    obtain rfl : off = 0x000 := BitVec.eq_of_toNat_eq h
    rfl
  · intro h
    obtain rfl : off = 0x008 := BitVec.eq_of_toNat_eq h
    rfl
  · intro h
    obtain rfl : off = 0x00C := BitVec.eq_of_toNat_eq h
    rfl
  · intro f j v hj hoff hv
    have hread := s.readWord_word hj
    rw [← hoff, BitVec.ofNat_toNat, BitVec.setWidth_eq] at hread
    rw [hread, State.traceWord, hv, Option.getD_some]
  · intro hid hstatus hinstat hfield
    refine s.readWord_eq_zero hid hstatus hinstat (Bool.eq_false_iff.2 fun h => ?_)
    obtain ⟨j, hj, hoff⟩ := exists_word_fieldAt h
    exact hfield _ j hj hoff
  · intro hwritten
    rw [State.noteRead_of_written fun h => ?_]
    obtain ⟨j, hj, hoff⟩ := exists_word_fieldAt h
    exact hwritten _ j hj hoff

end

/-! ### A write of any offset, in the order of its checks (R239, R240, R243) -/

namespace Sys2Proof

theorem Offset.aligned_iff_toNat (off : Offset) : off.aligned = true ↔ off.toNat % 4 = 0 := by
  rw [Offset.aligned, beq_iff_eq, Machine.extractLsb'_two_eq_zero_iff]

/-- A word write is known by its offset and its data. -/
theorem BusAccess.eq_wordWrite {a : BusAccess} {data : Word} (hk : a.kind = .write data)
    (hs : a.size = 4) {off : Offset} (ho : a.off.toNat = off.toNat) :
    a = ⟨off, 4, .write data⟩ := by
  obtain ⟨aoff, size, kind⟩ := a
  obtain rfl : aoff = off := BitVec.eq_of_toNat_eq ho
  obtain rfl : size = 4 := hs
  obtain rfl : kind = .write data := hk
  rfl

end Sys2Proof

section

open Sys2Proof Sys2Proof.Machine

/-- Settles O23, by the order of the decoder. -/
theorem otherWritesAreIgnored : Obligations.OtherWritesAreIgnored := by
  refine ⟨fun _ _ _ => rfl, fun off data hal hctrl hpt hkey => ?_⟩
  refine decodeHbus_write_ignored (off.aligned_iff_toNat.2 hal) (off.isPort_eq_false_iff.2 ?_) data
  exact ⟨by rintro rfl; exact hctrl rfl, by rintro rfl; exact hpt rfl, by rintro rfl; exact hkey rfl⟩

end

namespace Sys2Proof.Machine

/-- An aligned word write has no effect while `FATAL = 1`, whatever its offset (R239, R240). -/
theorem exec_write_of_fatal {off : Offset} (hal : off.toNat % 4 = 0) (data : Word) {s : State}
    (hf : s.fatal = true) :
    exec (decodeHbus ⟨off, 4, .write data⟩) s = .next { s with response := .written } := by
  obtain ⟨hports, -, -⟩ := fatalEngineTakesNoCommand
  obtain ⟨hctrl, hpt, hkey⟩ := hports s data hf
  cases hp : off.isPort with
  | false => rw [decodeHbus_write_ignored (off.aligned_iff_toNat.2 hal) hp]; rfl
  | true =>
    simp only [Offset.isPort, Bool.or_eq_true, beq_iff_eq] at hp
    obtain (rfl | rfl) | rfl := hp
    · rw [decodeHbus_write_ctrl, hctrl]
    · rw [decodeHbus_write_ptChar, hpt]
    · rw [decodeHbus_write_keyChar, hkey]

end Sys2Proof.Machine

section

open Sys2Proof Sys2Proof.Machine Sys2Proof.Statements

/-- Settles O25: each clause is the rule of the one row the write decodes to; a write to `CTRL` is the
command of its code. -/
theorem writeChecksRunInOrder : Obligations.WriteChecksRunInOrder := by
  intro a data s hk
  have hctrl : a.size = 4 → a.off.toNat = 0x004 →
      exec (decodeHbus a) s = exec (commandNamed (data.toNat % 16)) s := fun hs ho => by
    rw [BusAccess.eq_wordWrite hk hs (off := 0x004) ho, decodeHbus_write_ctrl,
      exec_wrCtrl_eq_commandNamed]
  refine ⟨fun h => ?_, fun hs hal hf => ?_, fun hs hal h4 h10 h14 => ?_, fun hs ho _ hcode => ?_,
    fun hs ho hf hcode => ?_, fun hs ho hf hcode => ?_, fun hs ho hf hlo hhi hb => ?_,
    fun hs ho hf hb => ?_, fun hs ho hf hcode hb hmal => ?_⟩
  · obtain ⟨herr, hdec⟩ := otherAccessesAreRefused
    obtain ⟨h0, h1⟩ := herr a s
    rw [hk] at h0 h1
    obtain hd | hd := hdec a h
    · rw [hd, h0]
    · rw [hd, h1]
  · rw [BusAccess.eq_wordWrite hk hs rfl, exec_write_of_fatal hal data hf]
  · obtain ⟨hexec, hdec⟩ := otherWritesAreIgnored
    rw [BusAccess.eq_wordWrite hk hs rfl, hdec _ _ hal h4 h10 h14, hexec]
  · rw [hctrl hs ho, hcode]
    exact nopHasNoEffect s
  · rw [hctrl hs ho, hcode]
    exact ackCommand s hf
  · obtain ⟨h67, h8F⟩ := reservedCommandsSetErrCmd s hf
    rw [hctrl hs ho]
    obtain ⟨b, hb⟩ | ⟨b, hb⟩ := commandNamed_reserved hcode
    · rw [hb, h67]
    · rw [hb, h8F]
  · rw [hctrl hs ho]
    obtain hc | hc | hc | hc : data.toNat % 16 = 1 ∨ data.toNat % 16 = 2 ∨ data.toNat % 16 = 3 ∨
      data.toNat % 16 = 4 := by omega
    · rw [hc]; exact (clearPlaintextCommand s hf).1 hb
    · rw [hc]; exact (clearKeyCommand s hf).1 hb
    · rw [hc]; exact (clearInputsCommand s hf).1 hb
    · rw [hc]; exact exec_start_of_busy hb hf
  · obtain ho | ho := ho
    · obtain ⟨-, hbusy, -⟩ := plaintextCharacterWrite data s
      rw [BusAccess.eq_wordWrite hk hs (off := 0x010) ho, decodeHbus_write_ptChar, hbusy hf hb]
    · obtain ⟨-, hbusy, -⟩ := keyCharacterWrite data s
      rw [BusAccess.eq_wordWrite hk hs (off := 0x014) ho, decodeHbus_write_keyChar, hbusy hf hb]
  · rw [hctrl hs ho, hcode]
    exact exec_start_of_malformed hb hf hmal

end

/-! ### A run refused for its strings (R205, R235, R261) -/

namespace Sys2Proof.Machine

/-- Strings with a character outside the alphabet are refused (R205). -/
theorem encryptBlock_of_not_hex (T : Tables) {pt key : List Char8}
    (h : pt.any (fun ch => !isHex ch) = true ∨ key.any (fun ch => !isHex ch) = true) :
    encryptBlock T pt key = .error .malformedInput := by
  simp only [List.any_eq_not_all_not, Bool.not_not, Bool.not_eq_true'] at h
  refine if_neg ?_
  obtain h | h := h <;> simp [h]

theorem core_run_one {s t : State} (h : step s = .next t) : Host.Core.run core 1 s = .next t :=
  core_run_succ (M := core) h 0

/-- The host's operations `ops`, performed one after the other on an idle engine, have their effect on
the fields and change nothing else of the engine. -/
theorem core_run_inputOps (ops : List InputOp) (rest : List HostOp) (k : Nat) {s : State}
    (hr : s.inReset = false) (hb : s.busy = false) (hf : s.fatal = false)
    (hp : s.program = ops.map (fun op => .access op.access) ++ rest)
    (hs : s.sched = List.replicate (ops.length + k) .host) :
    ∃ answer, Host.Core.run core (ops.length + k) s = Host.Core.run core k { s with
      pt := (ops.foldl InputOp.effect (s.pt, s.key)).1
      key := (ops.foldl InputOp.effect (s.pt, s.key)).2
      response := answer
      program := rest
      sched := List.replicate k .host } := by
  obtain ⟨haccess, -⟩ := stepRunsTheDecodedInstruction
  induction ops generalizing s with
  | nil =>
    rw [List.length_nil, Nat.zero_add] at hs ⊢
    obtain rfl : s.program = rest := hp
    exact ⟨s.response, by rw [List.foldl_nil, ← hs]⟩
  | cons op ops ih =>
    rw [List.length_cons, Nat.succ_add, List.replicate_succ] at hs
    have hstep := haccess s op.access _ hr (State.turn_cons hs) hp
    obtain ⟨_, hx⟩ := exec_inputOp op (s := { s with
      program := ops.map (fun op => .access op.access) ++ rest, sched := s.sched.tail }) hb hf
    rw [List.length_cons, Nat.succ_add, core_run_succ (M := core) (hstep.trans hx)]
    exact ih hr hb hf rfl (congrArg List.tail hs)

/-- A turn of the host that writes `START` to an idle engine with `FATAL = 0` and a malformed input. -/
theorem step_start_of_malformed {s : State} (hr : s.inReset = false) (ht : s.turn = .host)
    (hb : s.busy = false) (hf : s.fatal = false) (hmal : s.pt.mal = true ∨ s.key.mal = true)
    {rest : List HostOp} (hp : s.program = .cmd 0x4 :: rest) :
    step s = .next { s with
      errMalformed := true
      valid := false
      response := .written
      program := rest
      sched := s.sched.tail } := by
  obtain ⟨haccess, -⟩ := stepRunsTheDecodedInstruction
  rw [haccess s _ rest hr ht hp, decodeHbus_write_ctrl, exec_wrCtrl_eq_commandNamed]
  exact exec_start_of_malformed (s := { s with program := rest, sched := s.sched.tail }) hb hf hmal

/-- Clearing both fields and writing the two strings. -/
def stringOps (pt key : List Char8) : List InputOp := .clear :: (pt.map .ptChar ++ key.map .keyChar)

theorem length_stringOps (pt key : List Char8) :
    (stringOps pt key).length = pt.length + key.length + 1 := by simp [stringOps]

theorem map_access_stringOps (pt key : List Char8) :
    (stringOps pt key).map (fun op => .access op.access) =
      HostOp.cmd 3 :: (HostOp.pts pt ++ HostOp.keys key) := by
  simp only [stringOps, HostOp.pts, HostOp.keys, List.map_cons, List.map_append, List.map_map]
  rfl

/-- The two reads with which the order of work begins have no effect on the fields. -/
theorem foldl_effect_stringOps (pt key : List Char8) (fields : InputField × InputField) :
    (stringOps pt key).foldl InputOp.effect fields =
      (pt.foldl InputField.charIn .empty, key.foldl InputField.charIn .empty) :=
  foldl_effect_inputOps pt key fields

end Sys2Proof.Machine

section

open Sys2Proof Sys2Proof.Machine

/-- Settles O50: the strings leave their `MAL` flags in the two fields, and `START` finds one set. -/
theorem malformedStringStartsNoRun : Obligations.MalformedStringStartsNoRun := by
  intro s pt key hr hb hf hbad hp hs
  obtain ⟨-, hpt⟩ := foldl_charIn pt
  obtain ⟨-, hkey⟩ := foldl_charIn key
  have hlen : pt.length + key.length + 2 = (stringOps pt key).length + 1 := by rw [length_stringOps]
  rw [hlen] at hs ⊢
  obtain ⟨answer, hrun⟩ := core_run_inputOps (stringOps pt key) [.cmd 4] 1 hr hb hf
    (by rw [hp, map_access_stringOps, List.cons_append]) hs
  rw [foldl_effect_stringOps] at hrun
  have hmal := hbad
  rw [← hpt, ← hkey] at hmal
  have hstart := step_start_of_malformed (s := { s with
    pt := pt.foldl InputField.charIn .empty
    key := key.foldl InputField.charIn .empty
    response := answer
    program := [.cmd 4]
    sched := [.host] }) hr rfl hb hf hmal rfl
  exact ⟨_, hrun.trans (core_run_one hstart), encryptBlock_of_not_hex _ hbad, rfl, rfl, hb, rfl, rfl,
    hpt, hkey⟩

end

/-! ### Stops, and turns beside a run (R98, R262, R266, R268) -/

namespace Sys2Proof.Machine

/-- `IDLE` and the reserved codes have no place in the sequence (R27, R97). -/
theorem stagePlace_of_code_outside_sequence {c : BitVec 6}
    (h : c.toNat = 0x00 ∨ (0x05 ≤ c.toNat ∧ c.toNat ≤ 0x0F) ∨ 0x30 ≤ c.toNat) :
    stagePlace (decodeStage c) = none := by
  revert c
  decide

/-- The host's turn while a run is in progress changes nothing of the run, in reset and out of it. -/
theorem sameRun_of_host_step {s t : State} (hb : s.busy = true) (ht : s.turn = .host)
    (h : step s = .next t) : SameRun s t := by
  obtain ⟨ha, _⟩ | ⟨ha, _⟩ | ⟨ha, _⟩ | ⟨_, _, hc⟩ | ⟨_, hs⟩ := step_change h
  · simp [ht] at ha
  · simp [ht] at ha
  · simp [ht] at ha
  · exact hc.sameRun_of_busy hb
  · exact hs

/-- The host's turn never stops the machine: every bus access is answered. -/
theorem exists_step_of_host {s : State} (ht : s.turn = .host) : ∃ t, step s = .next t := by
  cases hr : s.inReset with
  | true => exact ⟨_, step_of_held hr (.inl ht)⟩
  | false =>
    obtain ⟨t, hop, -⟩ := hostOperation_cases s.passTurn
    exact ⟨t, (step_of_host hr ht).trans hop⟩

/-- The engine's turn does not stop a machine that meets the invariants: a busy engine is at a stage
of the sequence. -/
theorem State.Inv.exists_step_of_engine {s : State} (h : s.Inv) (ht : s.turn = .engine) :
    ∃ t, step s = .next t := by
  cases hr : s.inReset with
  | true => exact ⟨_, step_of_held hr (.inr ht)⟩
  | false =>
    cases hb : s.busy with
    | false => exact ⟨_, step_of_engine_idle ht hb⟩
    | true =>
      obtain ⟨n, hn⟩ := h.stagePlace_of_busy hb
      exact ⟨_, (step_of_busy hr hb ht).trans (exec_stage (s := s.passTurn) hn hb)⟩

/-- A machine that meets the invariants takes its next step, whoever moves. -/
theorem State.Inv.exists_step {s : State} (h : s.Inv) : ∃ t, step s = .next t := by
  cases ht : s.turn with
  | host => exact exists_step_of_host ht
  | engine => exact h.exists_step_of_engine ht
  | assertReset => exact ⟨_, step_of_assertReset ht⟩
  | releaseReset => exact ⟨_, step_of_releaseReset ht⟩

end Sys2Proof.Machine

section

open Sys2Proof Sys2Proof.Machine

/-- Settles O35: a busy engine at a code with no place in the sequence can only fault. -/
theorem reservedStageFaults : Obligations.ReservedStageFaults := by
  refine ⟨fun s hr hb ht hcode => ?_, fun s => ⟨rfl, fun _ => rfl, fun _ => rfl, fun _ => rfl⟩⟩
  rw [step_of_busy hr hb ht]
  obtain ⟨n, hn⟩ | hfault := stagePlace_or_fault s.stage (s := s.passTurn) hb
  · simp [stagePlace_of_code_outside_sequence hcode] at hn
  · exact hfault

/-- Settles O40: all that the host can make of a busy engine is another point of the same run. -/
theorem hostCannotDisturbARun : Obligations.HostCannotDisturbARun := by
  intro s t hb ht hst
  obtain ⟨⟩ := sameRun_of_host_step hb ht hst
  rfl

/-- Settles O46: reachable states meet the invariants. -/
theorem reachableMachineNeverStops : Obligations.ReachableMachineNeverStops := fun _ hs =>
  hs.inv_traceOk.1.exists_step

end

/-! ### What a placed table word runs (30_encoding.md R90, log 16) -/

namespace Sys2Proof.Machine

open Sys2Proof.Statements

/-- A table word decodes exactly when it stands for a code word, and its instruction is that code
word's. -/
theorem decodeTableWord_eq_some_iff {nbits w : Nat} {i : Instr} :
    decodeTableWord nbits w = some i ↔ ∃ cw, tableCodeWord nbits w = .ok cw ∧ decode cw = i := by
  unfold decodeTableWord decodeTable
  cases tableCodeWord nbits w <;> simp [Except.map, Except.toOption]

/-- A two-byte table word that is an encoding is a transaction. -/
theorem tableCodeWord_sixteen {w : Nat} {cw : CodeWord} (h : tableCodeWord 16 w = .ok cw) :
    ∃ a, cw = .hbus a := by
  simp only [tableCodeWord, Nat.reduceEqDiff, if_true, if_false] at h
  split at h
  · exact ⟨_, (Except.ok.inj h).symm⟩
  · cases h

/-- A four-byte table word that is an encoding is a command word. -/
theorem tableCodeWord_thirtyTwo {w : Nat} {cw : CodeWord} (h : tableCodeWord 32 w = .ok cw) :
    ∃ v, cw = .cmd v := by
  simp only [tableCodeWord, Nat.reduceEqDiff, if_true, if_false] at h
  split at h
  · exact ⟨_, (Except.ok.inj h).symm⟩
  · cases h

/-- A one-byte table word that is an encoding is the stage code it writes out, in six bits. -/
theorem tableCodeWord_eight {w : Nat} {cw : CodeWord} (h : tableCodeWord 8 w = .ok cw) :
    w < 2 ^ 6 ∧ cw = .stage (BitVec.ofNat 6 w) := by
  simp only [tableCodeWord, if_true] at h
  split at h
  next hw => exact ⟨hw, (Except.ok.inj h).symm⟩
  · cases h

theorem State.withFetchWord_of_ok (s : State) {nbits w : Nat} {cw : CodeWord}
    (h : tableCodeWord nbits w = .ok cw) : s.withFetchWord nbits w = s.withCodeWord cw := by
  simp only [State.withFetchWord, h]

/-- The decoder names a command code as R93 does. -/
theorem decodeCommandCode_eq_commandNamed (c : BitVec 4) :
    decodeCommandCode c = commandNamed c.toNat := by
  revert c
  decide

/-- A data word written to `CTRL` does what the command it decodes to does (R93, R242). -/
theorem exec_wrCtrl_eq_decodeCmd (data : Word) (s : State) :
    exec (.wrCtrl data) s = exec (decodeCmd data) s := by
  rw [decodeCmd, decodeCommandCode_eq_commandNamed, toNat_commandCode, exec_wrCtrl_eq_commandNamed]

/-- A placed transaction is the host's next operation, and leaves the program and the interleaving
as they were. -/
theorem step_withCodeWord_hbus (s : State) (a : BusAccess) :
    step (s.withCodeWord (.hbus a)) = exec (decodeHbus a) { s with inReset := false } :=
  (step_of_host rfl rfl).trans (State.hostOperation_access rfl)

/-- A placed command word is the placed write of it to `CTRL`. -/
theorem step_withCodeWord_cmd (s : State) (v : Word) :
    step (s.withCodeWord (.cmd v)) = exec (decodeCmd v) { s with inReset := false } := by
  rw [← exec_wrCtrl_eq_decodeCmd, ← decodeHbus_write_ctrl]
  exact step_withCodeWord_hbus s ⟨0x004, 4, .write v⟩

/-- A placed stage code is the stage of a busy engine; the code of `IDLE` leaves the engine idle,
and `IDLE` then has no step (R200). -/
theorem step_withCodeWord_stage (s : State) (c : BitVec 6) :
    step (s.withCodeWord (.stage c)) =
      exec (decodeStage c) { s with inReset := false, stage := c, busy := c != 0 } := by
  by_cases hc : c = 0
  · subst hc
    exact step_of_engine_idle rfl rfl
  · exact step_of_busy rfl (bne_iff_ne.2 hc) rfl

/-- A stage code that fits its six bits is that of `IDLE` only when it is 0. -/
theorem ofNat_six_bne_zero {w : Nat} (h : w < 2 ^ 6) :
    (BitVec.ofNat 6 w != 0) = decide (w ≠ 0) := by
  have h0 : BitVec.ofNat 6 w = 0 ↔ w = 0 := by
    rw [← BitVec.toNat_inj, BitVec.toNat_ofNat, Nat.mod_eq_of_lt h]
    rfl
  exact Bool.eq_iff_iff.2 (by rw [bne_iff_ne, decide_eq_true_iff, Ne, Ne, h0])

end Sys2Proof.Machine

section

open Sys2Proof Sys2Proof.Machine

/-- Settles O6: the end of a reset is the reset state of the same tables. -/
theorem resetEvaluatesFatal : Obligations.ResetEvaluatesFatal := by
  refine ⟨fun _ => rfl, fun s hr ht => ⟨s.passTurn.afterReset, ?_,
    s.passTurn.afterReset_fatal, s.passTurn.afterReset_tables⟩⟩
  rw [step_of_releaseReset ht, State.releaseReset_of_held (s := s.passTurn) hr]

/-- Settles O5, by the format of the word. -/
theorem placedInstructionRunsNext : Obligations.PlacedInstructionRunsNext := by
  refine ⟨fun s w i h => ?_, fun s w i h => ?_, fun s w i h => ?_⟩ <;>
    obtain ⟨cw, hcw, rfl⟩ := decodeTableWord_eq_some_iff.1 h <;>
    rw [s.withFetchWord_of_ok hcw]
  · obtain ⟨a, rfl⟩ := tableCodeWord_sixteen hcw
    exact step_withCodeWord_hbus s a
  · obtain ⟨v, rfl⟩ := tableCodeWord_thirtyTwo hcw
    exact step_withCodeWord_cmd s v
  · obtain ⟨hw, rfl⟩ := tableCodeWord_eight hcw
    rw [← ofNat_six_bne_zero hw]
    exact step_withCodeWord_stage s _

end
